-- ==== Sys2Proof/Word.lean ====
section
/-! DEFINITION. The widths of the core (00_scope R8, R12) and the two modes (00_scope R19, 10_state R27). -/

namespace Sys2Proof

/-- `NIBBLE_W` = 4 bits (00_scope R8). -/
abbrev Nibble := BitVec 4

/-- `WORD_W` = 8 bits: a byte, and a key-schedule word (00_scope R8). -/
abbrev Byte := BitVec 8

/-- `STATE_W` = 16 bits: a State, a Key, a Round Key, the data of a response (00_scope R8). -/
abbrev Word := BitVec 16

/-- A command word, 24 bits, bit 0 the least significant (00_scope R8, R9; 30_encoding R70). -/
abbrev Command := BitVec 24

/-- The mode of a trace: the third argument of `generateTrace` (00_scope R19, 46_trace R185). -/
inductive Mode where
  | encryption
  | decryption
deriving DecidableEq, Repr

end Sys2Proof
end

