-- ==== Sys2Proof/Syntax.lean ====
section
/-! DEFINITION. The 33 commands, one constructor per row of spec/opcode_table.json (30_encoding R73), each with the operands
of its format (R71). An operand has exactly the width of its slice of the immediate (R72), so an out-of-range value cannot
be written (60_exceptions R212). -/

namespace Sys2Proof

/-- The commands of 30_encoding R73. -/
inductive Instr where
  /-- `RDST`, op 0x01: read `STATUS` (47_system R205). -/
  | rdst
  /-- `RST`, op 0x02: soft reset (47_system R206). -/
  | rst
  /-- `GFM a, b`, op 0x10 (40_gf_arith R95). -/
  | gfm (a b : Nibble)
  /-- `SBX n`, op 0x20 (41_sbox R105). -/
  | sbx (n : Nibble)
  /-- `ISBX n`, op 0x21 (41_sbox R106). -/
  | isbx (n : Nibble)
  /-- `SBB b`, op 0x22 (41_sbox R107). -/
  | sbb (b : Byte)
  /-- `ISBB b`, op 0x23 (41_sbox R108). -/
  | isbb (b : Byte)
  /-- `LDS v`, op 0x30 (42_codec R121). -/
  | lds (v : Word)
  /-- `RDS`, op 0x31 (42_codec R122). -/
  | rds
  /-- `RDN i`, op 0x32 (42_codec R123). -/
  | rdn (i : BitVec 2)
  /-- `WRN i, v`, op 0x33 (42_codec R124). -/
  | wrn (i : BitVec 2) (v : Nibble)
  /-- `RDM r, c`, op 0x34 (42_codec R125). -/
  | rdm (r c : BitVec 1)
  /-- `WRM r, c, v`, op 0x35 (42_codec R126). -/
  | wrm (r c : BitVec 1) (v : Nibble)
  /-- `RTN b`, op 0x36 (42_codec R127). -/
  | rtn (b : Byte)
  /-- `LDK v`, op 0x40 (43_key_schedule R140). -/
  | ldk (v : Word)
  /-- `RDK`, op 0x41 (43_key_schedule R141). -/
  | rdk
  /-- `KEXP`, op 0x42 (43_key_schedule R142). -/
  | kexp
  /-- `RDW i`, op 0x43 (43_key_schedule R143). -/
  | rdw (i : BitVec 3)
  /-- `RDRK i`, op 0x44 (43_key_schedule R144). -/
  | rdrk (i : BitVec 2)
  /-- `ARK i`, op 0x50 (44_round_engine R160). -/
  | ark (i : BitVec 2)
  /-- `ARKI v`, op 0x51 (44_round_engine R161). -/
  | arki (v : Word)
  /-- `SUBN`, op 0x52 (44_round_engine R162). -/
  | subn
  /-- `ISUBN`, op 0x53 (44_round_engine R163). -/
  | isubn
  /-- `MIXC`, op 0x54 (44_round_engine R164). -/
  | mixc
  /-- `IMIXC`, op 0x55 (44_round_engine R165). -/
  | imixc
  /-- `SHRW`, op 0x56 (44_round_engine R166). -/
  | shrw
  /-- `ENC`, op 0x58 (45_pipeline R180). -/
  | enc
  /-- `DEC`, op 0x59 (45_pipeline R181). -/
  | dec
  /-- `TRC m`, op 0x60 (46_trace R190). -/
  | trc (m : Mode)
  /-- `RDTI i`, op 0x61 (46_trace R196). -/
  | rdti (i : BitVec 4)
  /-- `RDTS i`, op 0x62 (46_trace R197). -/
  | rdts (i : BitVec 4)
  /-- `RDTK i`, op 0x63 (46_trace R198). -/
  | rdtk (i : BitVec 4)
  /-- `RDTW i, j`, op 0x64: record `i`, word `j` (46_trace R199). -/
  | rdtw (i : BitVec 4) (j : BitVec 3)
deriving DecidableEq, Repr

end Sys2Proof
end

