-- ==== Sys2Proof/WellFormed.lean ====
section
/-! DEFINITION. Well-formedness. An operand of `Instr` has exactly its slice's width, so what can be ill-formed is what a
person writes: a line of assembly (30_encoding R84), whose operands are plain numbers. The assembler rejects a line with
the wrong number of operands, a number that does not fit its field, and a mode name where no mode is taken. Lines are
token lists: the text layer (commas, comments, hexadecimal) is the host's (assumption log 10). -/

namespace Sys2Proof

/-- The 33 mnemonics (30_encoding R73). -/
inductive Mnemonic where
  | rdst | rst | gfm | sbx | isbx | sbb | isbb | lds
  | rds | rdn | wrn | rdm | wrm | rtn | ldk | rdk
  | kexp | rdw | rdrk | ark | arki | subn | isubn | mixc
  | imixc | shrw | enc | dec | trc | rdti | rdts | rdtk
  | rdtw
deriving DecidableEq, Repr

/-- An operand of a line: a number, or for `TRC` the word `ENC` or `DEC` (30_encoding R84). -/
inductive AsmOperand where
  | num (n : Nat)
  | modeName (m : Mode)
deriving DecidableEq, Repr

/-- One line of assembly: a mnemonic and its operands in the order of 30_encoding R71; for `RDTW` the record index first,
then the word index (R84). -/
structure AsmLine where
  mnemonic : Mnemonic
  operands : List AsmOperand
deriving DecidableEq, Repr

/-- The pseudo-instructions (30_encoding R85). -/
inductive Pseudo where
  | expand (k : Word)
  | encrypt (x k : Word)
  | decrypt (x k : Word)
  | trace (x k : Word) (m : Mode)
  | rdrec (i : BitVec 4)
deriving DecidableEq, Repr

/-- The number an operand stands for: `ENC` is 0, `DEC` is 1 (30_encoding R84, 92_eei_decisions D26). -/
def AsmOperand.value : AsmOperand → Nat
  | .num n => n
  | .modeName .encryption => 0
  | .modeName .decryption => 1

/-- The widths of a mnemonic's operands in the order a line writes them (30_encoding R71, R84). -/
def Mnemonic.operandWidths : Mnemonic → List Nat
  | .rdst | .rst | .rds | .rdk | .kexp | .subn | .isubn | .mixc | .imixc | .shrw | .enc | .dec => []
  | .gfm => [4, 4]
  | .sbx | .isbx | .rdti | .rdts | .rdtk => [4]
  | .sbb | .isbb | .rtn => [8]
  | .lds | .ldk | .arki => [16]
  | .rdn | .rdrk | .ark => [2]
  | .wrn => [2, 4]
  | .rdm => [1, 1]
  | .wrm => [1, 1, 4]
  | .rdw => [3]
  | .trc => [1]
  | .rdtw => [4, 3]

/-- Check 1: as many operands as the mnemonic's format names. -/
def AsmLine.countOk (l : AsmLine) : Bool := l.operands.length == l.mnemonic.operandWidths.length

/-- Check 2: every operand fits its field (30_encoding R84). -/
def AsmLine.fits (l : AsmLine) : Bool :=
  (l.operands.zip l.mnemonic.operandWidths).all fun p => decide (p.1.value < 2 ^ p.2)

/-- Check 3: `ENC` and `DEC` are written only as the operand of `TRC` (30_encoding R84). -/
def AsmLine.modeNamesOk (l : AsmLine) : Bool :=
  l.mnemonic == .trc || l.operands.all fun o => match o with
    | .num _ => true
    | .modeName _ => false

/-- The lines the assembler accepts (30_encoding R84). -/
def AsmLine.wellFormed (l : AsmLine) : Bool := l.countOk && l.fits && l.modeNamesOk

/-- The line with every operand written as a number. -/
def AsmLine.canonical (l : AsmLine) : AsmLine :=
  { l with operands := l.operands.map fun o => .num o.value }

/-- The line that writes an instruction (30_encoding R84). -/
def Instr.line : Instr → AsmLine
  | .rdst => ⟨.rdst, []⟩
  | .rst => ⟨.rst, []⟩
  | .gfm a b => ⟨.gfm, [.num a.toNat, .num b.toNat]⟩
  | .sbx n => ⟨.sbx, [.num n.toNat]⟩
  | .isbx n => ⟨.isbx, [.num n.toNat]⟩
  | .sbb b => ⟨.sbb, [.num b.toNat]⟩
  | .isbb b => ⟨.isbb, [.num b.toNat]⟩
  | .lds v => ⟨.lds, [.num v.toNat]⟩
  | .rds => ⟨.rds, []⟩
  | .rdn i => ⟨.rdn, [.num i.toNat]⟩
  | .wrn i v => ⟨.wrn, [.num i.toNat, .num v.toNat]⟩
  | .rdm r c => ⟨.rdm, [.num r.toNat, .num c.toNat]⟩
  | .wrm r c v => ⟨.wrm, [.num r.toNat, .num c.toNat, .num v.toNat]⟩
  | .rtn b => ⟨.rtn, [.num b.toNat]⟩
  | .ldk v => ⟨.ldk, [.num v.toNat]⟩
  | .rdk => ⟨.rdk, []⟩
  | .kexp => ⟨.kexp, []⟩
  | .rdw i => ⟨.rdw, [.num i.toNat]⟩
  | .rdrk i => ⟨.rdrk, [.num i.toNat]⟩
  | .ark i => ⟨.ark, [.num i.toNat]⟩
  | .arki v => ⟨.arki, [.num v.toNat]⟩
  | .subn => ⟨.subn, []⟩
  | .isubn => ⟨.isubn, []⟩
  | .mixc => ⟨.mixc, []⟩
  | .imixc => ⟨.imixc, []⟩
  | .shrw => ⟨.shrw, []⟩
  | .enc => ⟨.enc, []⟩
  | .dec => ⟨.dec, []⟩
  | .trc m => ⟨.trc, [.num (AsmOperand.modeName m).value]⟩
  | .rdti i => ⟨.rdti, [.num i.toNat]⟩
  | .rdts i => ⟨.rdts, [.num i.toNat]⟩
  | .rdtk i => ⟨.rdtk, [.num i.toNat]⟩
  | .rdtw i j => ⟨.rdtw, [.num i.toNat, .num j.toNat]⟩

/-- An instruction is well-formed when the assembler accepts the line that writes it. -/
def Instr.wellFormed (i : Instr) : Bool := i.line.wellFormed

end Sys2Proof
end

