-- ==== Sys2Proof/Decode.lean ====
section
/-! DEFINITION. Decoding and encoding of command words (30_encoding R70 to R78), the assembler and the pseudo-instructions
(R84 to R86), and the word the host's opcode table speaks of. -/

namespace Sys2Proof

/-- Why a word is no command: its opcode is none of the 33 (30_encoding R75). The core answers it with `E_ILLEGAL`. -/
inductive DecodeError where
  | illegalOpcode (op : Byte)
deriving DecidableEq, Repr

/-- `op = cmd[23:16]` (30_encoding R70). -/
def opField (cmd : Command) : Byte := cmd.extractLsb' 16 8

/-- `imm = cmd[15:0]` (30_encoding R70). -/
def immField (cmd : Command) : Word := cmd.extractLsb' 0 16

/-- An operand: the slice of `imm` from bit `lo` up, `width` bits wide, read as it stands (30_encoding R72). -/
def operand (imm : Word) (lo width : Nat) : BitVec width := imm.extractLsb' lo width

/-- Mode operand: 0 Encryption, 1 Decryption (46_trace R190, 92_eei_decisions D26). -/
def modeOfBit (b : BitVec 1) : Mode := if b = 1 then .decryption else .encryption

/-- The bit of a mode: 0 Encryption, 1 Decryption (10_state R27). -/
def Mode.bit : Mode → BitVec 1
  | .encryption => 0
  | .decryption => 1

/-- The instruction of a legal opcode with the operands its format cuts from `imm` (30_encoding R71, R73), and none for
the 223 illegal ones (R75). The whole 8-bit opcode is matched (R74). -/
def instrOf (op : Byte) (imm : Word) : Option Instr :=
  match op.toNat with
  | 0x01 => some .rdst
  | 0x02 => some .rst
  | 0x10 => some (.gfm (operand imm 4 4) (operand imm 0 4))
  | 0x20 => some (.sbx (operand imm 0 4))
  | 0x21 => some (.isbx (operand imm 0 4))
  | 0x22 => some (.sbb (operand imm 0 8))
  | 0x23 => some (.isbb (operand imm 0 8))
  | 0x30 => some (.lds (operand imm 0 16))
  | 0x31 => some .rds
  | 0x32 => some (.rdn (operand imm 0 2))
  | 0x33 => some (.wrn (operand imm 4 2) (operand imm 0 4))
  | 0x34 => some (.rdm (operand imm 1 1) (operand imm 0 1))
  | 0x35 => some (.wrm (operand imm 5 1) (operand imm 4 1) (operand imm 0 4))
  | 0x36 => some (.rtn (operand imm 0 8))
  | 0x40 => some (.ldk (operand imm 0 16))
  | 0x41 => some .rdk
  | 0x42 => some .kexp
  | 0x43 => some (.rdw (operand imm 0 3))
  | 0x44 => some (.rdrk (operand imm 0 2))
  | 0x50 => some (.ark (operand imm 0 2))
  | 0x51 => some (.arki (operand imm 0 16))
  | 0x52 => some .subn
  | 0x53 => some .isubn
  | 0x54 => some .mixc
  | 0x55 => some .imixc
  | 0x56 => some .shrw
  | 0x58 => some .enc
  | 0x59 => some .dec
  | 0x60 => some (.trc (modeOfBit (operand imm 0 1)))
  | 0x61 => some (.rdti (operand imm 0 4))
  | 0x62 => some (.rdts (operand imm 0 4))
  | 0x63 => some (.rdtk (operand imm 0 4))
  | 0x64 => some (.rdtw (operand imm 0 4) (operand imm 4 3))
  | _ => none

/-- Decoding of a command word, total on all of them (30_encoding R77). -/
def decode (cmd : Command) : Except DecodeError Instr :=
  match instrOf (opField cmd) (immField cmd) with
  | some i => .ok i
  | none => .error (.illegalOpcode (opField cmd))

/-- `cmd = (op << 16) | imm` (30_encoding R84). -/
def commandWord (op : Byte) (imm : Word) : Command := op ++ imm

/-- The canonical encoding: the opcode of 30_encoding R73, the operands in the fields of R71, every ignored bit 0 (R76). -/
def encode : Instr → Command
  | .rdst => commandWord 0x01 0
  | .rst => commandWord 0x02 0
  | .gfm a b => commandWord 0x10 ((0 : BitVec 8) ++ a ++ b)
  | .sbx n => commandWord 0x20 ((0 : BitVec 12) ++ n)
  | .isbx n => commandWord 0x21 ((0 : BitVec 12) ++ n)
  | .sbb b => commandWord 0x22 ((0 : BitVec 8) ++ b)
  | .isbb b => commandWord 0x23 ((0 : BitVec 8) ++ b)
  | .lds v => commandWord 0x30 v
  | .rds => commandWord 0x31 0
  | .rdn i => commandWord 0x32 ((0 : BitVec 14) ++ i)
  | .wrn i v => commandWord 0x33 ((0 : BitVec 10) ++ i ++ v)
  | .rdm r c => commandWord 0x34 ((0 : BitVec 14) ++ r ++ c)
  | .wrm r c v => commandWord 0x35 ((0 : BitVec 10) ++ r ++ c ++ v)
  | .rtn b => commandWord 0x36 ((0 : BitVec 8) ++ b)
  | .ldk v => commandWord 0x40 v
  | .rdk => commandWord 0x41 0
  | .kexp => commandWord 0x42 0
  | .rdw i => commandWord 0x43 ((0 : BitVec 13) ++ i)
  | .rdrk i => commandWord 0x44 ((0 : BitVec 14) ++ i)
  | .ark i => commandWord 0x50 ((0 : BitVec 14) ++ i)
  | .arki v => commandWord 0x51 v
  | .subn => commandWord 0x52 0
  | .isubn => commandWord 0x53 0
  | .mixc => commandWord 0x54 0
  | .imixc => commandWord 0x55 0
  | .shrw => commandWord 0x56 0
  | .enc => commandWord 0x58 0
  | .dec => commandWord 0x59 0
  | .trc m => commandWord 0x60 ((0 : BitVec 15) ++ m.bit)
  | .rdti i => commandWord 0x61 ((0 : BitVec 12) ++ i)
  | .rdts i => commandWord 0x62 ((0 : BitVec 12) ++ i)
  | .rdtk i => commandWord 0x63 ((0 : BitVec 12) ++ i)
  | .rdtw i j => commandWord 0x64 ((0 : BitVec 9) ++ j ++ i)

/-- The bits of a command word that its format does not name (30_encoding R71, R76), as spec/opcode_table.json gives them
in `ignored_bits`. -/
def ignoredBits : Instr → Command
  | .rdst | .rst | .rds | .rdk | .kexp | .subn | .isubn | .mixc | .imixc | .shrw | .enc | .dec => 0x00FFFF
  | .gfm _ _ | .sbb _ | .isbb _ | .rtn _ => 0x00FF00
  | .sbx _ | .isbx _ | .rdti _ | .rdts _ | .rdtk _ => 0x00FFF0
  | .lds _ | .ldk _ | .arki _ => 0x000000
  | .rdn _ | .rdm _ _ | .rdrk _ | .ark _ => 0x00FFFC
  | .wrn _ _ | .wrm _ _ _ => 0x00FFC0
  | .rdw _ => 0x00FFF8
  | .trc _ => 0x00FFFE
  | .rdtw _ _ => 0x00FF80

/-- The instruction a mnemonic and the values of its operands name; none where their number is wrong. -/
def instrOfLine : Mnemonic → List Nat → Option Instr
  | .rdst, [] => some .rdst
  | .rst, [] => some .rst
  | .gfm, [a, b] => some (.gfm (BitVec.ofNat 4 a) (BitVec.ofNat 4 b))
  | .sbx, [n] => some (.sbx (BitVec.ofNat 4 n))
  | .isbx, [n] => some (.isbx (BitVec.ofNat 4 n))
  | .sbb, [b] => some (.sbb (BitVec.ofNat 8 b))
  | .isbb, [b] => some (.isbb (BitVec.ofNat 8 b))
  | .lds, [v] => some (.lds (BitVec.ofNat 16 v))
  | .rds, [] => some .rds
  | .rdn, [i] => some (.rdn (BitVec.ofNat 2 i))
  | .wrn, [i, v] => some (.wrn (BitVec.ofNat 2 i) (BitVec.ofNat 4 v))
  | .rdm, [r, c] => some (.rdm (BitVec.ofNat 1 r) (BitVec.ofNat 1 c))
  | .wrm, [r, c, v] => some (.wrm (BitVec.ofNat 1 r) (BitVec.ofNat 1 c) (BitVec.ofNat 4 v))
  | .rtn, [b] => some (.rtn (BitVec.ofNat 8 b))
  | .ldk, [v] => some (.ldk (BitVec.ofNat 16 v))
  | .rdk, [] => some .rdk
  | .kexp, [] => some .kexp
  | .rdw, [i] => some (.rdw (BitVec.ofNat 3 i))
  | .rdrk, [i] => some (.rdrk (BitVec.ofNat 2 i))
  | .ark, [i] => some (.ark (BitVec.ofNat 2 i))
  | .arki, [v] => some (.arki (BitVec.ofNat 16 v))
  | .subn, [] => some .subn
  | .isubn, [] => some .isubn
  | .mixc, [] => some .mixc
  | .imixc, [] => some .imixc
  | .shrw, [] => some .shrw
  | .enc, [] => some .enc
  | .dec, [] => some .dec
  | .trc, [m] => some (.trc (modeOfBit (BitVec.ofNat 1 m)))
  | .rdti, [i] => some (.rdti (BitVec.ofNat 4 i))
  | .rdts, [i] => some (.rdts (BitVec.ofNat 4 i))
  | .rdtk, [i] => some (.rdtk (BitVec.ofNat 4 i))
  | .rdtw, [i, j] => some (.rdtw (BitVec.ofNat 4 i) (BitVec.ofNat 3 j))
  | _, _ => none

/-- The instruction a line of assembly names, where the assembler accepts the line (30_encoding R84). -/
def AsmLine.toInstr (l : AsmLine) : Option Instr :=
  if l.wellFormed then instrOfLine l.mnemonic (l.operands.map AsmOperand.value) else none

/-- The assembler: the canonical encoding of a line it accepts (30_encoding R84). -/
def assemble (l : AsmLine) : Option Command := l.toInstr.map encode

/-- The commands a pseudo-instruction stands for, in order (30_encoding R85). -/
def Pseudo.expansion : Pseudo → List Instr
  | .expand k => [.ldk k, .kexp]
  | .encrypt x k => [.lds x, .ldk k, .enc]
  | .decrypt x k => [.lds x, .ldk k, .dec]
  | .trace x k m => [.lds x, .ldk k, .trc m]
  | .rdrec i => [.rdti i, .rdts i, .rdtk i]

/-- The command word whose low `nbits` bits are those of `w`, numbered as spec/opcode_table.json numbers them: a command is
one 24-bit word, so the table's bit 0 is bit 0 of the command (30_encoding R70). -/
def tableCommand (nbits w : Nat) : Command := BitVec.ofNat 24 (w % 2 ^ nbits)

/-- The instruction the decoder reads from a word of the opcode table. -/
def decodeTableWord (nbits w : Nat) : Option Instr :=
  match decode (tableCommand nbits w) with
  | .ok i => some i
  | .error _ => none

end Sys2Proof
end

