-- ==== Sys2Proof/Machine/Record.lean ====
section
/-! DEFINITION. Trace records and step identifiers (10_state R31, R32; 46_trace R204). -/

namespace Sys2Proof.Machine

/-- The closed set of the 19 step identifiers, with no catch-all (10_state R32, 46_trace R204). -/
inductive StepId where
  | input
  | keyExpansion
  | encAddRoundKey0
  | encSubNibbles1
  | encShiftRow1
  | encMixColumns1
  | encAddRoundKey1
  | encSubNibbles2
  | encShiftRow2
  | encAddRoundKey2
  | output
  | decAddRoundKey2
  | decInvShiftRow2
  | decInvSubNibbles2
  | decAddRoundKey1
  | decInvMixColumns1
  | decInvShiftRow1
  | decInvSubNibbles1
  | decAddRoundKey0
deriving DecidableEq, Repr

/-- The 5-bit code of a step identifier (10_state R32). Codes 0x0B to 0x11 and 0x1A to 0x1F have no identifier. -/
def StepId.code : StepId → BitVec 5
  | .input => 0x00
  | .keyExpansion => 0x01
  | .encAddRoundKey0 => 0x02
  | .encSubNibbles1 => 0x03
  | .encShiftRow1 => 0x04
  | .encMixColumns1 => 0x05
  | .encAddRoundKey1 => 0x06
  | .encSubNibbles2 => 0x07
  | .encShiftRow2 => 0x08
  | .encAddRoundKey2 => 0x09
  | .output => 0x0A
  | .decAddRoundKey2 => 0x12
  | .decInvShiftRow2 => 0x13
  | .decInvSubNibbles2 => 0x14
  | .decAddRoundKey1 => 0x15
  | .decInvMixColumns1 => 0x16
  | .decInvShiftRow1 => 0x17
  | .decInvSubNibbles1 => 0x18
  | .decAddRoundKey0 => 0x19

/-- A trace record, the hardware form of a Trace Step (10_state R31). The matrix is a view of `state` and the two
texts are the host's (46_trace R202), so neither is stored. -/
structure TraceRecord where
  id : StepId
  state : Word
  has_rk : Bool
  rk : Word
  has_words : Bool
  words : Vector Byte 6
deriving DecidableEq, Repr

/-- A record with every field 0, as reset leaves it: code 0x00 is `INPUT` (10_state R32, R35). -/
def TraceRecord.zero : TraceRecord where
  id := .input
  state := 0
  has_rk := false
  rk := 0
  has_words := false
  words := Vector.replicate 6 0

end Sys2Proof.Machine
end

