-- ==== Sys2Proof/Config.lean ====
section
/-! DEFINITION. What the spec leaves open: the S-Box parameter and the host's two text functions. Each is an opaque
constant, so no proof can lean on a value of it. -/

namespace Sys2Proof

/-- An S-Box: a permutation of the sixteen nibbles together with its inverse permutation. That is the whole of what the
spec says of `SBOX` and `ISBOX` (41_sbox R100). -/
abbrev SBox := Equiv.Perm Nibble

/-- The OPEN parameter `SBOX` (00_scope R8, 41_sbox R100, 92_eei_decisions D12); `ISBOX` is `Config.sbox.symm`.
A free value, safe: assumption log 3. -/
opaque Config.sbox : SBox

/-- `Descr(rec, mode)`: the description text, an uninterpreted function of the host (46_trace R202). A free value, safe:
assumption log 6. -/
opaque Config.descr : Machine.TraceRecord → Mode → String

/-- `Detail(rec, mode, prev)`: the technical-detail text, an uninterpreted function of the host (46_trace R202). A free
value, safe: assumption log 6. -/
opaque Config.detail : Machine.TraceRecord → Mode → Option Machine.TraceRecord → String

end Sys2Proof
end

