-- ==== Sys2Proof/Machine/State.lean ====
section
/-! DEFINITION. The state of the core (10_state), the host's side of the transaction interface, the reasons a step can stop,
and the state after reset (10_state R35). -/

namespace Sys2Proof.Machine

/-- The four errors of the command interface (60_exceptions R211). Each is a next state with a response, not a stop. -/
inductive ErrorKind where
  /-- `E_ILLEGAL`, code 1: the opcode is none of the 33 (R213). -/
  | illegal
  /-- `E_INDEX`, code 2: an index operand is past the end of its space (R214). -/
  | index
  /-- `E_NOKEY`, code 3: the word file is read while `KSV` = 0 (R215). -/
  | noKey
  /-- `E_NOTRACE`, code 4: the trace buffer is read while `TRV` = 0 (R216). -/
  | noTrace
deriving DecidableEq, Repr

/-- The response to one command: 1 error bit and 16 data bits (30_encoding R82). -/
structure Response where
  err : Bool
  data : Word
deriving DecidableEq, Repr

/-- What the host does next: it presents a command word, or asserts the reset input between two commands (00_scope R15). -/
inductive HostAction where
  | command (cmd : Command)
  | reset
deriving DecidableEq, Repr

/-- The faults of the machine: none. Every one of the 2^24 command words has exactly one defined outcome in every state
(60_exceptions R227, 70_reset_and_hazards R237) and an error does not end a run (R241). Raised by nobody; safe
(assumption log 8). -/
inductive Fault where
deriving DecidableEq, Repr

/-- The refusals of the machine. -/
inductive Refusal where
  /-- Raised by an arm of `exec` whose instruction has no meaning yet. Safe: nothing is claimed of it. No arm raises it. -/
  | notModelled (mnemonic : String)
deriving DecidableEq, Repr

/-- The state. `S` to `TB` are the core's whole architectural state (10_state R20 to R30, R33); `RK`, `STATUS` and a
record's matrix are views, not fields. `pending` and `replies` are the MODEL's own: the host's side of the transaction
interface (assumption log 1 and 2). -/
structure State where
  /-- The state register (R20). -/
  S : Word
  /-- The key register (R21). -/
  K : Word
  /-- The word file `W[0..5]` (R22). -/
  W : Vector Byte 6
  /-- Key schedule valid (R25). -/
  KSV : Bool
  /-- Trace valid (R26). -/
  TRV : Bool
  /-- Mode of the last `TRC` (R27). -/
  MODE : Mode
  /-- Some command has raised an error since reset (R28). -/
  ERR : Bool
  /-- Code of the first error since reset, 0 when none (R28). -/
  ECODE : BitVec 3
  /-- The sequencer's stage counter, the only program counter (R29). -/
  STAGE : BitVec 4
  /-- The trace buffer `TB[0..10]` (R30). -/
  TB : Vector TraceRecord 11
  /-- What the host will still do, the next action first (model's own). -/
  pending : List HostAction
  /-- The responses returned so far, the oldest first (model's own). -/
  replies : List Response
deriving DecidableEq, Repr

/-- The state after reset: every value of 10_state R35; the host has done nothing yet (assumption log 1 and 2). -/
def State.reset : State where
  S := 0x0000
  K := 0x0000
  W := Vector.replicate 6 0x00
  KSV := false
  TRV := false
  MODE := .encryption
  ERR := false
  ECODE := 0
  STAGE := 0
  TB := Vector.replicate 11 TraceRecord.zero
  pending := []
  replies := []

end Sys2Proof.Machine
end

