-- ==== Sys2Proof/Machine/Operands.lean ====
section
/-! DEFINITION. The three forms of a 16-bit value (integer, nibble sequence, 2x2 column-major matrix) and the address spaces,
which are indexed views of the core's registers and constants (20_memory R50 to R61, 42_codec R115 to R120, R129). -/

namespace Sys2Proof.Machine

/-- `zext_16` (00_scope R11). -/
def zext16 {n : Nat} (v : BitVec n) : Word := v.setWidth 16

/-- A nibble sequence `[n0, n1, n2, n3]`, element 0 the most significant nibble (20_memory R58). -/
abbrev Nibbles := Vector Nibble 4

/-- A 2x2 matrix of nibbles, the first index the row, the second the column (20_memory R59). -/
abbrev NibbleMatrix := Vector (Vector Nibble 2) 2

/-- `toNibbles` (42_codec R115). -/
def toNibbles (v : Word) : Nibbles :=
  #v[v.extractLsb' 12 4, v.extractLsb' 8 4, v.extractLsb' 4 4, v.extractLsb' 0 4]

/-- `fromNibbles` (42_codec R116). -/
def fromNibbles (q : Nibbles) : Word := q[0] ++ q[1] ++ q[2] ++ q[3]

/-- `toMatrix`, column-major (42_codec R117, 20_memory R59). -/
def toMatrix (v : Word) : NibbleMatrix :=
  #v[#v[(toNibbles v)[0], (toNibbles v)[2]], #v[(toNibbles v)[1], (toNibbles v)[3]]]

/-- `fromMatrix` (42_codec R118). -/
def fromMatrix (m : NibbleMatrix) : Word := fromNibbles #v[m[0][0], m[1][0], m[0][1], m[1][1]]

/-- `rotateNibblesInByte` swaps the two nibbles of a byte (42_codec R119). -/
def rotateNibblesInByte (b : Byte) : Byte := b.extractLsb' 0 4 ++ b.extractLsb' 4 4

/-- The high byte of a 16-bit value (20_memory R60). -/
def highByte (v : Word) : Byte := v.extractLsb' 8 8

/-- The low byte of a 16-bit value (20_memory R60). -/
def lowByte (v : Word) : Byte := v.extractLsb' 0 8

/-- The matrix form of a trace record's state, a view (10_state R31). -/
def TraceRecord.matrix (r : TraceRecord) : NibbleMatrix := toMatrix r.state

/-- Read of cell `i` of the nibble space `NS` (20_memory R51). -/
def nsRead (i : BitVec 2) (s : State) : Nibble := (toNibbles s.S)[i.toNat]'i.isLt

/-- The value of `S` after a write of cell `i` of `NS`: the other three nibbles keep their values (20_memory R51). -/
def nsWrite (i : BitVec 2) (v : Nibble) (s : State) : Word := fromNibbles ((toNibbles s.S).set i.toNat v i.isLt)

/-- Read of cell `(r, c)` of the matrix space `MS` (20_memory R52). -/
def msRead (r c : BitVec 1) (s : State) : Nibble := ((toMatrix s.S)[r.toNat]'r.isLt)[c.toNat]'c.isLt

/-- The value of `S` after a write of cell `(r, c)` of `MS` (20_memory R52, 42_codec R126). -/
def msWrite (r c : BitVec 1) (v : Nibble) (s : State) : Word :=
  fromMatrix ((toMatrix s.S).set r.toNat (((toMatrix s.S)[r.toNat]'r.isLt).set c.toNat v c.isLt) r.isLt)

/-- Cell `i` of the word file space `WS`; there is none past index 5 (20_memory R53, R61). -/
def wsCell (i : BitVec 3) (s : State) : Option Byte := s.W[i.toNat]?

/-- The view `RK`: round key `i` is `W[2i] ++ W[2i+1]` (10_state R23, 20_memory R54). -/
def roundKeysOf (w : Vector Byte 6) : Vector Word 3 := #v[w[0] ++ w[1], w[2] ++ w[3], w[4] ++ w[5]]

/-- The round keys as the word file holds them (10_state R23). -/
def State.RK (s : State) : Vector Word 3 := roundKeysOf s.W

/-- Cell `i` of the round-key space `RKS`; there is none past index 2 (20_memory R54, R61). -/
def rksCell (i : BitVec 2) (s : State) : Option Word := s.RK[i.toNat]?

/-- Cell `i` of the trace buffer space `TBS`; there is none past index 10 (20_memory R55, R61). -/
def tbsCell (i : BitVec 4) (s : State) : Option TraceRecord := s.TB[i.toNat]?

/-- Word `j` of cell `i` of `TBS`; there is none where either index is past its end (20_memory R61, 60_exceptions R214). -/
def tbsWord (i : BitVec 4) (j : BitVec 3) (s : State) : Option Byte :=
  match tbsCell i s with
  | some r => r.words[j.toNat]?
  | none => none

/-- Cell `n` of the forward S-Box ROM `SBR` is `SBOX[n]` (20_memory R56, 41_sbox R100). -/
def sbrCell (σ : SBox) (n : Nibble) : Nibble := σ n

/-- Cell `n` of the inverse S-Box ROM `ISBR` is `ISBOX[n]` (20_memory R56, 41_sbox R100). -/
def isbrCell (σ : SBox) (n : Nibble) : Nibble := σ.symm n

end Sys2Proof.Machine
end

