-- ==== Sys2Proof/Machine/Flags.lean ====
section
/-! DEFINITION. The status register and the error codes (10_state R24 to R28, 60_exceptions R211). -/

namespace Sys2Proof.Machine

/-- The code of an error (60_exceptions R211). Codes 5 to 7 are unassigned. -/
def ErrorKind.code : ErrorKind → BitVec 3
  | .illegal => 1
  | .index => 2
  | .noKey => 3
  | .noTrace => 4

/-- `STATUS`, a read-only composite: `KSV`, `TRV`, `MODE`, `ERR` in bits 0 to 3, `STAGE` in 7:4, `ECODE` in 10:8, zeros above
(10_state R24, 47_system R205). -/
def State.STATUS (s : State) : Word :=
  (0 : BitVec 5) ++ s.ECODE ++ s.STAGE ++ BitVec.ofBool s.ERR ++ s.MODE.bit ++ BitVec.ofBool s.TRV ++ BitVec.ofBool s.KSV


/-- `ECODE` after error `e`: the first error since reset wins (10_state R28). -/
def ecodeAfter (e : ErrorKind) (s : State) : BitVec 3 := if s.ERR then s.ECODE else e.code

end Sys2Proof.Machine
end

