-- ==== Sys2Proof/Machine/Ops.lean ====
section
/-! DEFINITION. The operations every command is made of: responding, writing a register, taking an error, the guarded reads,
reset (00_scope R12, 30_encoding R82, R83, 60_exceptions R217, R218, 47_system R206). There is no return from an error:
control goes nowhere and the core is ready for the next command (60_exceptions R218, R219). -/

namespace Sys2Proof.Machine

/-- `rsp(v)`: the command's response is `(err = 0, data = v)` (00_scope R12, 30_encoding R82). -/
def State.respond (v : Word) (s : State) : State := { s with replies := s.replies ++ [⟨false, v⟩] }

/-- ERROR ENTRY, the one way an error is taken (60_exceptions R218): `ERR` and `ECODE` record the first error since reset,
the response is `(err = 1, data = zext_16(code))`, and nothing else changes. -/
def State.raise (e : ErrorKind) (s : State) : State :=
  { s with ERR := true, ECODE := ecodeAfter e s, replies := s.replies ++ [⟨true, zext16 e.code⟩] }

/-- `S <- v` (10_state R20). -/
def State.setS (v : Word) (s : State) : State := { s with S := v }

/-- `K <- v; KSV <- 0`: a new key invalidates the word file (10_state R21, R25; 43_key_schedule R140). -/
def State.loadKey (v : Word) (s : State) : State := { s with K := v, KSV := false }

/-- `W[0..5] <- w; KSV <- 1`: the six words are written together, and only so (10_state R22, R25). -/
def State.loadWords (w : Vector Byte 6) (s : State) : State := { s with W := w, KSV := true }

/-- `MODE <- m; STAGE <- 0`: the sequencer's start (46_trace R190). -/
def State.startTrace (m : Mode) (s : State) : State := { s with MODE := m, STAGE := 0 }

/-- `TB[STAGE] <- r; STAGE <- STAGE + 1`: the end of a stage (46_trace R189). -/
def State.endStage (r : TraceRecord) (s : State) : State :=
  { s with TB := s.TB.setIfInBounds s.STAGE.toNat r, STAGE := s.STAGE + 1 }

/-- `TRV <- 1` (10_state R26). -/
def State.validateTrace (s : State) : State := { s with TRV := true }

/-- The effect of reset, by the reset input or by `RST`: every piece of architectural state takes its reset value; the
host's side is not the core's and stays (70_reset_and_hazards R230, 47_system R206). -/
def State.clear (s : State) : State := { State.reset with pending := s.pending, replies := s.replies }

/-- The state once the host has taken its next action, with `rest` left to do (00_scope R15). -/
def State.leave (rest : List HostAction) (s : State) : State := { s with pending := rest }

/-- A command that writes `S` returns the new value of `S` (30_encoding R83 a). -/
def State.replaceS (v : Word) (s : State) : State := (s.setS v).respond v

/-- The checks of a guarded command in their fixed order: an index with no cell raises `E_INDEX`; then a validity flag that is
0 raises `e`; then the command goes on with the cell (60_exceptions R217). -/
def State.guarded {α : Type} (cell : Option α) (valid : Bool) (e : ErrorKind) (use : α → State) (s : State) : State :=
  match cell with
  | none => s.raise .index
  | some c => if valid then use c else s.raise e

end Sys2Proof.Machine
end

