-- ==== Sys2Proof/Machine/Codec.lean ====
section
/-! DEFINITION. The loads and stores of the core: `LDS`, `RDS`, `RDN`, `WRN`, `RDM`, `WRM`, and `RTN` (42_codec). -/

namespace Sys2Proof.Machine

/-- `LDS v` (42_codec R121). -/
def execLds (v : Word) (s : State) : Host.Outcome State Fault Refusal := .next (s.replaceS v)

/-- `RDS` (42_codec R122). -/
def execRds (s : State) : Host.Outcome State Fault Refusal := .next (s.respond s.S)

/-- `RDN i` (42_codec R123). -/
def execRdn (i : BitVec 2) (s : State) : Host.Outcome State Fault Refusal := .next (s.respond (zext16 (nsRead i s)))

/-- `WRN i, v` (42_codec R124). -/
def execWrn (i : BitVec 2) (v : Nibble) (s : State) : Host.Outcome State Fault Refusal :=
  .next (s.replaceS (nsWrite i v s))

/-- `RDM r, c` (42_codec R125). -/
def execRdm (r c : BitVec 1) (s : State) : Host.Outcome State Fault Refusal :=
  .next (s.respond (zext16 (msRead r c s)))

/-- `WRM r, c, v` (42_codec R126). -/
def execWrm (r c : BitVec 1) (v : Nibble) (s : State) : Host.Outcome State Fault Refusal :=
  .next (s.replaceS (msWrite r c v s))

/-- `RTN b` (42_codec R127). -/
def execRtn (b : Byte) (s : State) : Host.Outcome State Fault Refusal :=
  .next (s.respond (zext16 (rotateNibblesInByte b)))

end Sys2Proof.Machine
end

