-- ==== Sys2Proof/Machine/System.lean ====
section
/-! DEFINITION. System commands (47_system). -/

namespace Sys2Proof.Machine

/-- `RDST`: the response is `STATUS`; nothing is cleared (47_system R205). -/
def execRdst (s : State) : Host.Outcome State Fault Refusal := .next (s.respond s.STATUS)

/-- `RST`: the effect of reset, and the response 0 (47_system R206). -/
def execRst (s : State) : Host.Outcome State Fault Refusal := .next (s.clear.respond 0x0000)

end Sys2Proof.Machine
end

