-- ==== Sys2Proof/Machine/Substitution.lean ====
section
/-! DEFINITION. The substitution functions for any S-Box, the default table, and the commands `SBX`, `ISBX`, `SBB`, `ISBB`
(41_sbox). A meaning `exec…` is its `…At` form at the parameter `Config.sbox`. -/

namespace Sys2Proof.Machine

/-- The default `SBOX` row of 41_sbox R101. PRESUMED: general knowledge, not in the spec's source (assumption log 4). -/
def publishedSboxRow : Vector Nibble 16 :=
  #v[0x9, 0x4, 0xA, 0xB, 0xD, 0x1, 0x8, 0x5, 0x6, 0x2, 0x0, 0x3, 0xC, 0xE, 0xF, 0x7]

/-- The default `ISBOX` row of 41_sbox R101. PRESUMED, as `publishedSboxRow`. -/
def publishedIsboxRow : Vector Nibble 16 :=
  #v[0xA, 0x5, 0x9, 0xB, 0x1, 0x7, 0x8, 0xF, 0x6, 0x0, 0x2, 0x3, 0xC, 0x4, 0xD, 0xE]

/-- The default value of the parameter `SBOX` (41_sbox R101), with the proof that its two rows are inverse to each other. The
machine does not use it: `Config.sbox` stays free (assumption log 3 and 4). -/
def publishedSbox : SBox where
  toFun n := publishedSboxRow[n.toNat]'n.isLt
  invFun n := publishedIsboxRow[n.toNat]'n.isLt
  left_inv := by decide
  right_inv := by decide

/-- `substituteNibble(n, inverse)`: a table lookup (41_sbox R102). -/
def substituteNibble (σ : SBox) (n : Nibble) (inverse : Bool) : Nibble :=
  if inverse then isbrCell σ n else sbrCell σ n

/-- `substituteByte(b, inverse)`: each nibble independently, in its place (41_sbox R103). -/
def substituteByte (σ : SBox) (b : Byte) (inverse : Bool) : Byte :=
  substituteNibble σ (b.extractLsb' 4 4) inverse ++ substituteNibble σ (b.extractLsb' 0 4) inverse

/-- `SBX n` at the S-Box `σ` (41_sbox R105). -/
def sbxAt (σ : SBox) (n : Nibble) (s : State) : State := s.respond (zext16 (substituteNibble σ n false))

/-- `ISBX n` at the S-Box `σ` (41_sbox R106). -/
def isbxAt (σ : SBox) (n : Nibble) (s : State) : State := s.respond (zext16 (substituteNibble σ n true))

/-- `SBB b` at the S-Box `σ` (41_sbox R107). -/
def sbbAt (σ : SBox) (b : Byte) (s : State) : State := s.respond (zext16 (substituteByte σ b false))

/-- `ISBB b` at the S-Box `σ` (41_sbox R108). -/
def isbbAt (σ : SBox) (b : Byte) (s : State) : State := s.respond (zext16 (substituteByte σ b true))

/-- `SBX n` (41_sbox R105). -/
def execSbx (n : Nibble) (s : State) : Host.Outcome State Fault Refusal := .next (sbxAt Config.sbox n s)

/-- `ISBX n` (41_sbox R106). -/
def execIsbx (n : Nibble) (s : State) : Host.Outcome State Fault Refusal := .next (isbxAt Config.sbox n s)

/-- `SBB b` (41_sbox R107). -/
def execSbb (b : Byte) (s : State) : Host.Outcome State Fault Refusal := .next (sbbAt Config.sbox b s)

/-- `ISBB b` (41_sbox R108). -/
def execIsbb (b : Byte) (s : State) : Host.Outcome State Fault Refusal := .next (isbbAt Config.sbox b s)

end Sys2Proof.Machine
end

