-- ==== Sys2Proof/Machine/KeySchedule.lean ====
section
/-! DEFINITION. The key schedule and the commands `LDK`, `RDK`, `KEXP`, `RDW`, `RDRK` (43_key_schedule). -/

namespace Sys2Proof.Machine

/-- `RCON1` (43_key_schedule R135). -/
def rcon1 : Byte := 0x80

/-- `RCON2` (43_key_schedule R135). -/
def rcon2 : Byte := 0x30

/-- What `expandKey` returns: three round keys and six words (43_key_schedule R135). -/
structure KeySchedule where
  roundKeys : Vector Word 3
  words : Vector Byte 6
deriving DecidableEq, Repr

/-- The inner step: rotate the nibbles, substitute with the forward table, add the round constant (43_key_schedule R136). -/
def scheduleCore (σ : SBox) (w rcon : Byte) : Byte := substituteByte σ (rotateNibblesInByte w) false ^^^ rcon

/-- `expandKey` (43_key_schedule R135). -/
def expandKey (σ : SBox) (key : Word) : KeySchedule :=
  let w0 := highByte key
  let w1 := lowByte key
  let g1 := scheduleCore σ w1 rcon1
  let w2 := w0 ^^^ g1
  let w3 := w2 ^^^ w1
  let g3 := scheduleCore σ w3 rcon2
  let w4 := w2 ^^^ g3
  let w5 := w4 ^^^ w3
  { roundKeys := #v[w0 ++ w1, w2 ++ w3, w4 ++ w5], words := #v[w0, w1, w2, w3, w4, w5] }

/-- A key-schedule run: `W[0..5] <- expandKey(K).words; KSV <- 1` (10_state R22, 43_key_schedule R142). -/
def State.runKeySchedule (σ : SBox) (s : State) : State := s.loadWords (expandKey σ s.K).words

/-- `KEXP` at the S-Box `σ` (43_key_schedule R142). -/
def kexpAt (σ : SBox) (s : State) : State := (s.runKeySchedule σ).respond 0x0000

/-- `LDK v` (43_key_schedule R140). -/
def execLdk (v : Word) (s : State) : Host.Outcome State Fault Refusal := .next ((s.loadKey v).respond 0x0000)

/-- `RDK` (43_key_schedule R141). -/
def execRdk (s : State) : Host.Outcome State Fault Refusal := .next (s.respond s.K)

/-- `KEXP` (43_key_schedule R142). -/
def execKexp (s : State) : Host.Outcome State Fault Refusal := .next (kexpAt Config.sbox s)

/-- `RDW i` (43_key_schedule R143). -/
def execRdw (i : BitVec 3) (s : State) : Host.Outcome State Fault Refusal :=
  .next (s.guarded (wsCell i s) s.KSV .noKey fun w => s.respond (zext16 w))

/-- `RDRK i` (43_key_schedule R144). -/
def execRdrk (i : BitVec 2) (s : State) : Host.Outcome State Fault Refusal :=
  .next (s.guarded (rksCell i s) s.KSV .noKey fun k => s.respond k)

end Sys2Proof.Machine
end

