-- ==== Sys2Proof/Machine/GfArith.lean ====
section
/-! DEFINITION. Multiplication in GF(2⁴) modulo x⁴+x+1 and the command `GFM` (40_gf_arith). -/

namespace Sys2Proof.Machine

/-- The reduction constant 0x3 of x⁴+x+1, bit pattern 0b10011 (40_gf_arith R90). -/
def reductionConstant : Nibble := 0x3

/-- The loop variables of `gfMultiply`; they are not state (10_state R33 a). -/
structure GfLoop where
  acc : Nibble
  a : Nibble
  b : Nibble
deriving DecidableEq, Repr

/-- One iteration: accumulate the current `a` when the low bit of `b` is set, then shift and reduce `a`, then shift `b`
(40_gf_arith R90). -/
def gfIteration (l : GfLoop) : GfLoop where
  acc := if l.b.getLsbD 0 then l.acc ^^^ l.a else l.acc
  a := if l.a.getLsbD 3 then (l.a <<< 1) ^^^ reductionConstant else l.a <<< 1
  b := l.b >>> 1

/-- `n` iterations. -/
def gfIterate : Nat → GfLoop → GfLoop
  | 0, l => l
  | n + 1, l => gfIterate n (gfIteration l)

/-- `gfMultiply`: four iterations from an accumulator of 0 (40_gf_arith R90, R91). -/
def gfMultiply (a b : Nibble) : Nibble := (gfIterate 4 ⟨0, a, b⟩).acc

/-- `GFM a, b` (40_gf_arith R95). -/
def execGfm (a b : Nibble) (s : State) : Host.Outcome State Fault Refusal :=
  .next (s.respond (zext16 (gfMultiply a b)))

end Sys2Proof.Machine
end

