-- ==== Sys2Proof/Machine/RoundEngine.lean ====
section
/-! DEFINITION. The round transformations and the commands `ARK`, `ARKI`, `SUBN`, `ISUBN`, `MIXC`, `IMIXC`, `SHRW`
(44_round_engine). -/

namespace Sys2Proof.Machine

/-- `addRoundKey` (44_round_engine R150). -/
def addRoundKey (state roundKey : Word) : Word := state ^^^ roundKey

/-- `substituteNibbles(state, inverse)`: four independent lanes (44_round_engine R151). -/
def substituteNibbles (σ : SBox) (state : Word) (inverse : Bool) : Word :=
  let n := toNibbles state
  fromNibbles #v[substituteNibble σ n[0] inverse, substituteNibble σ n[1] inverse, substituteNibble σ n[2] inverse,
    substituteNibble σ n[3] inverse]

/-- `shiftRow`: the second row's two entries are swapped; the same function serves both directions (44_round_engine R153). -/
def shiftRow (state : Word) : Word :=
  let m := toMatrix state
  fromMatrix #v[m[0], #v[m[1][1], m[1][0]]]

/-- Column mixing with a constant matrix `k`: `out[r][c] = k[r][0]·in[0][c] ^ k[r][1]·in[1][c]`, wholly from the input
(44_round_engine R154, R155). -/
def mixWith (k : NibbleMatrix) (state : Word) : Word :=
  let m := toMatrix state
  let out (r c : Fin 2) : Nibble := gfMultiply k[r][0] m[0][c] ^^^ gfMultiply k[r][1] m[1][c]
  fromMatrix #v[#v[out 0 0, out 0 1], #v[out 1 0, out 1 1]]

/-- The MixColumns matrix (44_round_engine R154). -/
def mixMatrix : NibbleMatrix := #v[#v[1, 4], #v[4, 1]]

/-- The InvMixColumns matrix (44_round_engine R155). -/
def invMixMatrix : NibbleMatrix := #v[#v[9, 2], #v[2, 9]]

/-- `mixColumns` (44_round_engine R154). -/
def mixColumns (state : Word) : Word := mixWith mixMatrix state

/-- `invMixColumns` (44_round_engine R155). -/
def invMixColumns (state : Word) : Word := mixWith invMixMatrix state

/-- `SUBN` at the S-Box `σ` (44_round_engine R162). -/
def subnAt (σ : SBox) (s : State) : State := s.replaceS (substituteNibbles σ s.S false)

/-- `ISUBN` at the S-Box `σ` (44_round_engine R163). -/
def isubnAt (σ : SBox) (s : State) : State := s.replaceS (substituteNibbles σ s.S true)

/-- `ARK i` (44_round_engine R160). -/
def execArk (i : BitVec 2) (s : State) : Host.Outcome State Fault Refusal :=
  .next (s.guarded (rksCell i s) s.KSV .noKey fun k => s.replaceS (addRoundKey s.S k))

/-- `ARKI v` (44_round_engine R161). -/
def execArki (v : Word) (s : State) : Host.Outcome State Fault Refusal := .next (s.replaceS (addRoundKey s.S v))

/-- `SUBN` (44_round_engine R162). -/
def execSubn (s : State) : Host.Outcome State Fault Refusal := .next (subnAt Config.sbox s)

/-- `ISUBN` (44_round_engine R163). -/
def execIsubn (s : State) : Host.Outcome State Fault Refusal := .next (isubnAt Config.sbox s)

/-- `MIXC` (44_round_engine R164). -/
def execMixc (s : State) : Host.Outcome State Fault Refusal := .next (s.replaceS (mixColumns s.S))

/-- `IMIXC` (44_round_engine R165). -/
def execImixc (s : State) : Host.Outcome State Fault Refusal := .next (s.replaceS (invMixColumns s.S))

/-- `SHRW` (44_round_engine R166). -/
def execShrw (s : State) : Host.Outcome State Fault Refusal := .next (s.replaceS (shiftRow s.S))

end Sys2Proof.Machine
end

