-- ==== Sys2Proof/Machine/Pipeline.lean ====
section
/-! DEFINITION. The encryption and decryption pipelines and the commands `ENC`, `DEC` (45_pipeline). -/

namespace Sys2Proof.Machine

/-- `Encrypt(input, key)`: eight stages (45_pipeline R175). -/
def encrypt (σ : SBox) (input key : Word) : Word :=
  let rk := (expandKey σ key).roundKeys
  let s := addRoundKey input rk[0]
  let s := substituteNibbles σ s false
  let s := shiftRow s
  let s := mixColumns s
  let s := addRoundKey s rk[1]
  let s := substituteNibbles σ s false
  let s := shiftRow s
  addRoundKey s rk[2]

/-- `Decrypt(ciphertext, key)`: the mirror, with the same forward schedule (45_pipeline R176). -/
def decrypt (σ : SBox) (ciphertext key : Word) : Word :=
  let rk := (expandKey σ key).roundKeys
  let s := addRoundKey ciphertext rk[2]
  let s := shiftRow s
  let s := substituteNibbles σ s true
  let s := addRoundKey s rk[1]
  let s := invMixColumns s
  let s := shiftRow s
  let s := substituteNibbles σ s true
  addRoundKey s rk[0]

/-- `ENC` at the S-Box `σ`: its own key-schedule run, then the pipeline (45_pipeline R180). -/
def encAt (σ : SBox) (s : State) : State := (s.runKeySchedule σ).replaceS (encrypt σ s.S s.K)

/-- `DEC` at the S-Box `σ` (45_pipeline R181). -/
def decAt (σ : SBox) (s : State) : State := (s.runKeySchedule σ).replaceS (decrypt σ s.S s.K)

/-- `ENC` (45_pipeline R180). -/
def execEnc (s : State) : Host.Outcome State Fault Refusal := .next (encAt Config.sbox s)

/-- `DEC` (45_pipeline R181). -/
def execDec (s : State) : Host.Outcome State Fault Refusal := .next (decAt Config.sbox s)

end Sys2Proof.Machine
end

