-- ==== Sys2Proof/Machine/Trace.lean ====
section
/-! DEFINITION. The trace sequencer, the function `generateTrace`, and the commands `TRC`, `RDTI`, `RDTS`, `RDTK`, `RDTW`
(46_trace). -/

namespace Sys2Proof.Machine

/-- The nine micro-operations; `U_ARK` carries its round-key index (46_trace R187, R188). -/
inductive MicroOp where
  | uInput
  | uKexp
  | uArk (k : Fin 3)
  | uSub
  | uIsub
  | uShr
  | uMix
  | uImix
  | uOutput
deriving DecidableEq, Repr

/-- A row of the stage table (46_trace R187). -/
structure StageEntry where
  id : StepId
  uop : MicroOp
deriving DecidableEq, Repr

/-- The stage table `SEQR`, eleven rows for each mode (46_trace R187, 20_memory R56). -/
def seqr : Mode → Vector StageEntry 11
  | .encryption =>
    #v[⟨.input, .uInput⟩, ⟨.keyExpansion, .uKexp⟩, ⟨.encAddRoundKey0, .uArk 0⟩, ⟨.encSubNibbles1, .uSub⟩,
      ⟨.encShiftRow1, .uShr⟩, ⟨.encMixColumns1, .uMix⟩, ⟨.encAddRoundKey1, .uArk 1⟩, ⟨.encSubNibbles2, .uSub⟩,
      ⟨.encShiftRow2, .uShr⟩, ⟨.encAddRoundKey2, .uArk 2⟩, ⟨.output, .uOutput⟩]
  | .decryption =>
    #v[⟨.input, .uInput⟩, ⟨.keyExpansion, .uKexp⟩, ⟨.decAddRoundKey2, .uArk 2⟩, ⟨.decInvShiftRow2, .uShr⟩,
      ⟨.decInvSubNibbles2, .uIsub⟩, ⟨.decAddRoundKey1, .uArk 1⟩, ⟨.decInvMixColumns1, .uImix⟩, ⟨.decInvShiftRow1, .uShr⟩,
      ⟨.decInvSubNibbles1, .uIsub⟩, ⟨.decAddRoundKey0, .uArk 0⟩, ⟨.output, .uOutput⟩]

/-- The effect of a micro-operation on the working state (46_trace R188). -/
def MicroOp.effect (σ : SBox) (u : MicroOp) (s : State) : State :=
  match u with
  | .uInput => s
  | .uKexp => s.runKeySchedule σ
  | .uArk k => s.setS (addRoundKey s.S s.RK[k])
  | .uSub => s.setS (substituteNibbles σ s.S false)
  | .uIsub => s.setS (substituteNibbles σ s.S true)
  | .uShr => s.setS (shiftRow s.S)
  | .uMix => s.setS (mixColumns s.S)
  | .uImix => s.setS (invMixColumns s.S)
  | .uOutput => s

/-- A record that carries neither a round key nor words (46_trace R188). -/
def plainRecord (id : StepId) (state : Word) : TraceRecord := { TraceRecord.zero with id, state }

/-- A record that carries the round key of its stage (46_trace R188). -/
def keyRecord (id : StepId) (state rk : Word) : TraceRecord := { TraceRecord.zero with id, state, has_rk := true, rk }

/-- A record that carries the six words (46_trace R188). -/
def wordsRecord (id : StepId) (state : Word) (words : Vector Byte 6) : TraceRecord :=
  { TraceRecord.zero with id, state, has_words := true, words }

/-- The record of a stage, made from the state AFTER its effect (46_trace R189). -/
def StageEntry.record (e : StageEntry) (s : State) : TraceRecord :=
  match e.uop with
  | .uArk k => keyRecord e.id s.S s.RK[k]
  | .uKexp => wordsRecord e.id s.S s.W
  | _ => plainRecord e.id s.S

/-- The end of a stage: its record is written and the counter moves on (46_trace R189). -/
def StageEntry.finish (e : StageEntry) (s : State) : State := s.endStage (e.record s)

/-- `SeqStep`: one stage (46_trace R189). Its precondition is a `STAGE` in 0 to 10; with no row at `STAGE` the sequencer has
halted and does nothing (10_state R29, 46_trace R195 c; DESIGN CHOICE for 12 to 15, never reached, assumption log 11). -/
def State.seqStep (σ : SBox) (s : State) : State :=
  match (seqr s.MODE)[s.STAGE.toNat]? with
  | none => s
  | some e => e.finish (e.uop.effect σ s)

/-- `n` stages of the sequencer. -/
def State.seqRun (σ : SBox) : Nat → State → State
  | 0, s => s
  | n + 1, s => State.seqRun σ n (s.seqStep σ)

/-- `TRC m` at the S-Box `σ`: from stage 0, eleven stages, then the trace is valid and the response is the final state
(46_trace R190). -/
def trcAt (σ : SBox) (m : Mode) (s : State) : State :=
  let t := ((s.startTrace m).seqRun σ 11).validateTrace
  t.respond t.S

/-- `generateTrace(input, key, mode)` spelled out (46_trace R185, R191). -/
def generateTrace (σ : SBox) (input key : Word) (mode : Mode) : Vector TraceRecord 11 :=
  let ks := expandKey σ key
  let k0 := ks.roundKeys[0]
  let k1 := ks.roundKeys[1]
  let k2 := ks.roundKeys[2]
  match mode with
  | .encryption =>
    let s2 := addRoundKey input k0
    let s3 := substituteNibbles σ s2 false
    let s4 := shiftRow s3
    let s5 := mixColumns s4
    let s6 := addRoundKey s5 k1
    let s7 := substituteNibbles σ s6 false
    let s8 := shiftRow s7
    let s9 := addRoundKey s8 k2
    #v[plainRecord .input input, wordsRecord .keyExpansion input ks.words, keyRecord .encAddRoundKey0 s2 k0,
      plainRecord .encSubNibbles1 s3, plainRecord .encShiftRow1 s4, plainRecord .encMixColumns1 s5,
      keyRecord .encAddRoundKey1 s6 k1, plainRecord .encSubNibbles2 s7, plainRecord .encShiftRow2 s8,
      keyRecord .encAddRoundKey2 s9 k2, plainRecord .output s9]
  | .decryption =>
    let t2 := addRoundKey input k2
    let t3 := shiftRow t2
    let t4 := substituteNibbles σ t3 true
    let t5 := addRoundKey t4 k1
    let t6 := invMixColumns t5
    let t7 := shiftRow t6
    let t8 := substituteNibbles σ t7 true
    let t9 := addRoundKey t8 k0
    #v[plainRecord .input input, wordsRecord .keyExpansion input ks.words, keyRecord .decAddRoundKey2 t2 k2,
      plainRecord .decInvShiftRow2 t3, plainRecord .decInvSubNibbles2 t4, keyRecord .decAddRoundKey1 t5 k1,
      plainRecord .decInvMixColumns1 t6, plainRecord .decInvShiftRow1 t7, plainRecord .decInvSubNibbles1 t8,
      keyRecord .decAddRoundKey0 t9 k0, plainRecord .output t9]

/-- The data of `RDTI`: id in 4:0, `has_rk` in bit 8, `has_words` in bit 9, zeros elsewhere (46_trace R196). -/
def TraceRecord.idData (r : TraceRecord) : Word :=
  (0 : BitVec 6) ++ BitVec.ofBool r.has_words ++ BitVec.ofBool r.has_rk ++ (0 : BitVec 3) ++ r.id.code

/-- `TRC m` (46_trace R190). -/
def execTrc (m : Mode) (s : State) : Host.Outcome State Fault Refusal := .next (trcAt Config.sbox m s)

/-- `RDTI i` (46_trace R196). -/
def execRdti (i : BitVec 4) (s : State) : Host.Outcome State Fault Refusal :=
  .next (s.guarded (tbsCell i s) s.TRV .noTrace fun r => s.respond r.idData)

/-- `RDTS i` (46_trace R197). -/
def execRdts (i : BitVec 4) (s : State) : Host.Outcome State Fault Refusal :=
  .next (s.guarded (tbsCell i s) s.TRV .noTrace fun r => s.respond r.state)

/-- `RDTK i` (46_trace R198). -/
def execRdtk (i : BitVec 4) (s : State) : Host.Outcome State Fault Refusal :=
  .next (s.guarded (tbsCell i s) s.TRV .noTrace fun r => s.respond r.rk)

/-- `RDTW i, j` (46_trace R199). -/
def execRdtw (i : BitVec 4) (j : BitVec 3) (s : State) : Host.Outcome State Fault Refusal :=
  .next (s.guarded (tbsWord i j s) s.TRV .noTrace fun w => s.respond (zext16 w))

/-- A Trace Step as the host presents it: the record and the two texts it computes (10_state R31, 46_trace R191, R202). -/
structure TraceStep where
  record : TraceRecord
  description : String
  detail : String
deriving DecidableEq, Repr

/-- The Trace Step of a record in a trace of the given mode, after the record `prev` if there is one (46_trace R202). -/
def traceStepOf (mode : Mode) (prev : Option TraceRecord) (r : TraceRecord) : TraceStep where
  record := r
  description := Config.descr r mode
  detail := Config.detail r mode prev

/-- The Trace Steps of a list of records in order, `prev` being the record before the first. -/
def traceStepsFrom (mode : Mode) : Option TraceRecord → List TraceRecord → List TraceStep
  | _, [] => []
  | prev, r :: rest => traceStepOf mode prev r :: traceStepsFrom mode (some r) rest

/-- The ordered sequence of Trace Steps of one run, texts included (46_trace R185, R191). -/
def traceSteps (σ : SBox) (input key : Word) (mode : Mode) : List TraceStep :=
  traceStepsFrom mode none (generateTrace σ input key mode).toList

/-- What the explanation service is given of a step: stage id, texts, current state, previous state if there is one, round
key if present (46_trace R203). -/
structure ExplanationData where
  id : StepId
  description : String
  detail : String
  current : Word
  previous : Option Word
  roundKey : Option Word
deriving DecidableEq, Repr

/-- The data the core supplies for the step of record `r` after record `prev` (46_trace R203). -/
def explanationData (mode : Mode) (prev : Option TraceRecord) (r : TraceRecord) : ExplanationData where
  id := r.id
  description := Config.descr r mode
  detail := Config.detail r mode prev
  current := r.state
  previous := prev.map TraceRecord.state
  roundKey := if r.has_rk then some r.rk else none

end Sys2Proof.Machine
end

