-- ==== Sys2Proof/Machine/Dispatch.lean ====
section
/-! DEFINITION. One arm per command (30_encoding R73). -/

namespace Sys2Proof.Machine

/-- The meaning of each command. -/
def exec (i : Instr) (s : State) : Host.Outcome State Fault Refusal :=
  match i with
  | .rdst => Sys2Proof.Machine.execRdst s
  | .rst => Sys2Proof.Machine.execRst s
  | .gfm a b => Sys2Proof.Machine.execGfm a b s
  | .sbx n => Sys2Proof.Machine.execSbx n s
  | .isbx n => Sys2Proof.Machine.execIsbx n s
  | .sbb b => Sys2Proof.Machine.execSbb b s
  | .isbb b => Sys2Proof.Machine.execIsbb b s
  | .lds v => Sys2Proof.Machine.execLds v s
  | .rds => Sys2Proof.Machine.execRds s
  | .rdn k => Sys2Proof.Machine.execRdn k s
  | .wrn k v => Sys2Proof.Machine.execWrn k v s
  | .rdm r c => Sys2Proof.Machine.execRdm r c s
  | .wrm r c v => Sys2Proof.Machine.execWrm r c v s
  | .rtn b => Sys2Proof.Machine.execRtn b s
  | .ldk v => Sys2Proof.Machine.execLdk v s
  | .rdk => Sys2Proof.Machine.execRdk s
  | .kexp => Sys2Proof.Machine.execKexp s
  | .rdw k => Sys2Proof.Machine.execRdw k s
  | .rdrk k => Sys2Proof.Machine.execRdrk k s
  | .ark k => Sys2Proof.Machine.execArk k s
  | .arki v => Sys2Proof.Machine.execArki v s
  | .subn => Sys2Proof.Machine.execSubn s
  | .isubn => Sys2Proof.Machine.execIsubn s
  | .mixc => Sys2Proof.Machine.execMixc s
  | .imixc => Sys2Proof.Machine.execImixc s
  | .shrw => Sys2Proof.Machine.execShrw s
  | .enc => Sys2Proof.Machine.execEnc s
  | .dec => Sys2Proof.Machine.execDec s
  | .trc m => Sys2Proof.Machine.execTrc m s
  | .rdti k => Sys2Proof.Machine.execRdti k s
  | .rdts k => Sys2Proof.Machine.execRdts k s
  | .rdtk k => Sys2Proof.Machine.execRdtk k s
  | .rdtw k j => Sys2Proof.Machine.execRdtw k j s

end Sys2Proof.Machine
end

