-- ==== Sys2Proof/Machine/Fetch.lean ====
section
/-! DEFINITION. How the core accepts what the host does next: one command, one response; reset between commands; idle when
nothing is presented (00_scope R15, 20_memory R63, 70_reset_and_hazards R230, R241). -/

namespace Sys2Proof.Machine

/-- A command word is presented: a legal one is executed by `run`, an illegal one raises `E_ILLEGAL` whatever its immediate
(30_encoding R75, R77). -/
def presentWith (run : Instr → State → Host.Outcome State Fault Refusal) (cmd : Command) (s : State) :
    Host.Outcome State Fault Refusal :=
  match decode cmd with
  | .ok i => run i s
  | .error _ => .next (s.raise .illegal)

/-- One step: the host's next action, or nothing when it has none left (70_reset_and_hazards R230, R241). -/
def stepWith (run : Instr → State → Host.Outcome State Fault Refusal) (s : State) : Host.Outcome State Fault Refusal :=
  match s.pending with
  | [] => .next s
  | .reset :: rest => .next (s.leave rest).clear
  | .command cmd :: rest => presentWith run cmd (s.leave rest)

/-- The state with a command put in front of what the host will do. -/
def State.presenting (cmd : Command) (s : State) : State := s.leave (.command cmd :: s.pending)

end Sys2Proof.Machine
end

