-- ==== Sys2Proof/Machine/Step.lean ====
section
/-! DEFINITION. One step of the machine, and the placing of one instruction where the step takes its next one. -/

namespace Sys2Proof.Machine

/-- One step: the core accepts the host's next action (00_scope R15). -/
def step (s : State) : Host.Outcome State Fault Refusal := stepWith exec s

/-- `s` with the instruction of an opcode-table word as the host's next command (assumption log 1). -/
def State.withFetchWord (s : State) (nbits w : Nat) : State := s.presenting (tableCommand nbits w)

end Sys2Proof.Machine
end

