-- ==== Sys2Proof/Machine/Parametric.lean ====
section
/-! DEFINITION. The machine at any S-Box: the spec's parameter `SBOX` as an argument (00_scope R8, 92_eei_decisions D12). At
`Config.sbox` it is the machine itself (Laws/Parametric.lean); at `publishedSbox` it evaluates to the spec's "default
S-Box" vectors (95_test_vectors). -/

namespace Sys2Proof.Machine

/-- The meaning of each command at the S-Box `σ`. -/
def execAt (σ : SBox) (i : Instr) (s : State) : Host.Outcome State Fault Refusal :=
  match i with
  | .rdst => execRdst s
  | .rst => execRst s
  | .gfm a b => execGfm a b s
  | .sbx n => .next (sbxAt σ n s)
  | .isbx n => .next (isbxAt σ n s)
  | .sbb b => .next (sbbAt σ b s)
  | .isbb b => .next (isbbAt σ b s)
  | .lds v => execLds v s
  | .rds => execRds s
  | .rdn k => execRdn k s
  | .wrn k v => execWrn k v s
  | .rdm r c => execRdm r c s
  | .wrm r c v => execWrm r c v s
  | .rtn b => execRtn b s
  | .ldk v => execLdk v s
  | .rdk => execRdk s
  | .kexp => .next (kexpAt σ s)
  | .rdw k => execRdw k s
  | .rdrk k => execRdrk k s
  | .ark k => execArk k s
  | .arki v => execArki v s
  | .subn => .next (subnAt σ s)
  | .isubn => .next (isubnAt σ s)
  | .mixc => execMixc s
  | .imixc => execImixc s
  | .shrw => execShrw s
  | .enc => .next (encAt σ s)
  | .dec => .next (decAt σ s)
  | .trc m => .next (trcAt σ m s)
  | .rdti k => execRdti k s
  | .rdts k => execRdts k s
  | .rdtk k => execRdtk k s
  | .rdtw k j => execRdtw k j s

/-- One step at the S-Box `σ`. -/
def stepAt (σ : SBox) (s : State) : Host.Outcome State Fault Refusal := stepWith (execAt σ) s

end Sys2Proof.Machine
end

