-- ==== Sys2Proof/Safety.lean ====
section
/-! DEFINITION. What a run of this core is and what the spec promises of one, in the terms the statements use: the write
matrix (10_state R36), the invariants (R34), the errors a command can raise (60_exceptions R211 to R217), what the host can
observe (70_reset_and_hazards R242). The machine never stops, so a safe run is one whose every state is coherent. -/

namespace Sys2Proof.Machine

/-- The machine's steps, any number of them. -/
inductive Runs : State → State → Prop where
  | refl (s : State) : Runs s s
  | tail {s t u : State} : Runs s t → step t = .next u → Runs s u

/-- A state of some run from reset: the host presents any list of command words, with resets between them
(70_reset_and_hazards R241, R230). -/
def Reachable (t : State) : Prop := ∃ actions : List HostAction, Runs (State.reset.leave actions) t

/-- A list of instructions executed one after the other. -/
def execList : List Instr → State → Host.Outcome State Fault Refusal
  | [], s => .next s
  | i :: rest, s =>
    match exec i s with
    | .next t => execList rest t
    | .fault r => .fault r
    | .refused r => .refused r

/-- A list of instructions executed at the S-Box `σ`. -/
def execListAt (σ : SBox) : List Instr → State → Host.Outcome State Fault Refusal
  | [], s => .next s
  | i :: rest, s =>
    match execAt σ i s with
    | .next t => execListAt σ rest t
    | .fault r => .fault r
    | .refused r => .refused r

/-- The core's answer to one command word. -/
def present (cmd : Command) (s : State) : Host.Outcome State Fault Refusal := presentWith exec cmd s

/-- The columns of the write matrix (10_state R36). -/
inductive Column where
  | S
  | K
  | W
  | KSV
  | TRV
  | MODE
  | STAGE
  | TB
deriving DecidableEq, Repr

/-- Two states agree in a column. -/
def Column.same : Column → State → State → Prop
  | .S, s, t => t.S = s.S
  | .K, s, t => t.K = s.K
  | .W, s, t => t.W = s.W
  | .KSV, s, t => t.KSV = s.KSV
  | .TRV, s, t => t.TRV = s.TRV
  | .MODE, s, t => t.MODE = s.MODE
  | .STAGE, s, t => t.STAGE = s.STAGE
  | .TB, s, t => t.TB = s.TB

end Sys2Proof.Machine

namespace Sys2Proof

/-- The cells of the write matrix that are not blank, row by row (10_state R36). -/
def Instr.writes : Instr → List Machine.Column
  | .gfm _ _ | .sbx _ | .isbx _ | .sbb _ | .isbb _ | .rtn _ => []
  | .rds | .rdn _ | .rdm _ _ | .rdk | .rdw _ | .rdrk _ | .rdst | .rdti _ | .rdts _ | .rdtk _ | .rdtw _ _ => []
  | .lds _ | .wrn _ _ | .wrm _ _ _ => [.S]
  | .ldk _ => [.K, .KSV]
  | .kexp => [.W, .KSV]
  | .ark _ | .arki _ | .subn | .isubn | .shrw | .mixc | .imixc => [.S]
  | .enc | .dec => [.S, .W, .KSV]
  | .trc _ => [.S, .W, .KSV, .TRV, .MODE, .STAGE, .TB]
  | .rst => [.S, .K, .W, .KSV, .TRV, .MODE, .STAGE, .TB]

/-- The commands that only read: loads of registers, words, records and status, and the pure functions (10_state R36). -/
def Instr.onlyReads (i : Instr) : Bool := i.writes.isEmpty

/-- The index operands of a command lie inside their spaces (60_exceptions R214). -/
def Instr.indexLegal : Instr → Bool
  | .rdw i => decide (i.toNat ≤ 5)
  | .rdrk i | .ark i => decide (i.toNat ≤ 2)
  | .rdti i | .rdts i | .rdtk i => decide (i.toNat ≤ 10)
  | .rdtw i j => decide (i.toNat ≤ 10) && decide (j.toNat ≤ 5)
  | _ => true

/-- The commands that read the word file (60_exceptions R215). -/
def Instr.needsKey : Instr → Bool
  | .rdw _ | .rdrk _ | .ark _ => true
  | _ => false

/-- The commands that read the trace buffer (60_exceptions R216). -/
def Instr.needsTrace : Instr → Bool
  | .rdti _ | .rdts _ | .rdtk _ | .rdtw _ _ => true
  | _ => false

end Sys2Proof

namespace Sys2Proof.Machine

/-- Two states agree in every column: the data state of the core (60_exceptions R219). -/
def SameData (s t : State) : Prop := ∀ c : Column, c.same s t

/-- The error a command word raises, the first of the checks in their order that fails (60_exceptions R217). -/
def errorOf (cmd : Command) (s : State) : Option ErrorKind :=
  match decode cmd with
  | .error _ => some .illegal
  | .ok i =>
    if !i.indexLegal then some .index
    else if i.needsKey && !s.KSV then some .noKey
    else if i.needsTrace && !s.TRV then some .noTrace
    else none

/-- A list of command words presented one after the other. -/
def presentAll : List Command → State → State
  | [], s => s
  | c :: rest, s =>
    match present c s with
    | .next t => presentAll rest t
    | _ => s

/-- The command words of a list that raise no error when the whole list is presented from `s`. -/
def surviving : List Command → State → List Command
  | [], _ => []
  | c :: rest, s =>
    match present c s with
    | .next t => if (errorOf c s).isSome then surviving rest t else c :: surviving rest t
    | _ => []

/-- The key of the run that filled the trace buffer, as its record 1 holds it (10_state R34 I2). -/
def State.tracedKey (s : State) : Word := s.TB[1].words[0] ++ s.TB[1].words[1]

/-- The invariants of 10_state R34. -/
structure Coherent (s : State) : Prop where
  /-- I1: a valid word file is the schedule of `K`. -/
  wordFile : s.KSV = true → s.W = (expandKey Config.sbox s.K).words
  /-- I2: a valid trace buffer is the trace of its own input, key and mode. -/
  traceBuffer : s.TRV = true → s.TB = generateTrace Config.sbox s.TB[0].state s.tracedKey s.MODE
  /-- I3: `STAGE` is 11 after a trace and 0 before one. -/
  stage : s.STAGE = if s.TRV then 11 else 0
  /-- I4: `ECODE` is 0 exactly when `ERR` is 0. -/
  errorFlags : s.ECODE = 0 ↔ s.ERR = false
  /-- I4: `ECODE` is in 0 to 4. -/
  errorCode : s.ECODE.toNat ≤ 4
  /-- I6: no trace, then mode 0. -/
  mode : s.TRV = false → s.MODE = .encryption

/-- The host cannot tell the two states apart by any command (70_reset_and_hazards R242): they agree on everything but `W`
behind `KSV` = 0 and `TB` behind `TRV` = 0. -/
structure Indistinguishable (s t : State) : Prop where
  S : s.S = t.S
  K : s.K = t.K
  KSV : s.KSV = t.KSV
  TRV : s.TRV = t.TRV
  MODE : s.MODE = t.MODE
  ERR : s.ERR = t.ERR
  ECODE : s.ECODE = t.ECODE
  STAGE : s.STAGE = t.STAGE
  W : s.KSV = true → s.W = t.W
  TB : s.TRV = true → s.TB = t.TB

/-- Every word with this opcode is this command, with the operands cut from the word by `f`, whatever its other bits
(30_encoding R71, R73, R76). -/
def DecodesAs (op : Byte) (f : Command → Instr) : Prop :=
  ∀ w : Command, w.extractLsb' 16 8 = op → decode w = .ok (f w)

/-- The state after a command raises the error with code `c`, as 60_exceptions R218 spells it. -/
def afterError (c : BitVec 3) (s : State) : State :=
  { s with
    ERR := true
    ECODE := if s.ERR then s.ECODE else c
    replies := s.replies ++ [⟨true, c.setWidth 16⟩] }

/-- Multiplication by x modulo x⁴+x+1 (40_gf_arith R92). -/
def xtime (a : Nibble) : Nibble := (a <<< 1) ^^^ (if a.getLsbD 3 then 0x3 else 0x0)

/-- The product of two polynomials modulo x⁴+x+1 as a sum of four terms (40_gf_arith R92). -/
def polyProduct (a b : Nibble) : Nibble :=
  (if b.getLsbD 0 then a else 0) ^^^ (if b.getLsbD 1 then xtime a else 0) ^^^
    (if b.getLsbD 2 then xtime (xtime a) else 0) ^^^ (if b.getLsbD 3 then xtime (xtime (xtime a)) else 0)

/-- The inner step of the key schedule in nibbles: `(SBOX[l] ++ SBOX[h]) ^ rcon` for `w = h ++ l` (43_key_schedule R136). -/
def innerStep (σ : SBox) (w rcon : Byte) : Byte := (σ (w.extractLsb' 0 4) ++ σ (w.extractLsb' 4 4)) ^^^ rcon

/-- The six words are those the algorithm of 43_key_schedule R135 makes from the key. -/
def IsScheduleOf (σ : SBox) (key : Word) (w : Vector Byte 6) : Prop :=
  w[0] = key.extractLsb' 8 8 ∧ w[1] = key.extractLsb' 0 8 ∧
  w[2] = w[0] ^^^ innerStep σ w[1] 0x80 ∧ w[3] = w[2] ^^^ w[1] ∧
  w[4] = w[2] ^^^ innerStep σ w[3] 0x30 ∧ w[5] = w[4] ^^^ w[3]

/-- The pipeline of a mode (46_trace R190). -/
def pipelineOf (σ : SBox) : Mode → Word → Word → Word
  | .encryption => encrypt σ
  | .decryption => decrypt σ

/-- The opcodes of the 33 commands (30_encoding R73). -/
def legalOpcodes : List Nat :=
  [0x01, 0x02, 0x10, 0x20, 0x21, 0x22, 0x23, 0x30, 0x31, 0x32, 0x33, 0x34, 0x35, 0x36, 0x40, 0x41, 0x42, 0x43, 0x44,
    0x50, 0x51, 0x52, 0x53, 0x54, 0x55, 0x56, 0x58, 0x59, 0x60, 0x61, 0x62, 0x63, 0x64]

end Sys2Proof.Machine
end

