-- ==== Sys2Proof/Certificates/Slice0/Obligations.lean ====
section
/-! DEFINITION. The statements for the provers. Each docstring names the rule of spec/ it formalises. `Config.sbox` is the
spec's free parameter, so a statement about it holds for every S-Box. A command's response is the entry it adds to `replies`,
the model's record of the responses (assumption log 2). -/

open Sys2Proof Sys2Proof.Machine

/-- Decoding undoes encoding, for every instruction with every operand (30_encoding R70 to R77). -/
def Obligations.DecodeInvertsEncode : Prop := ∀ i : Instr, decode (encode i) = .ok i

/-- 30_encoding R86: the encoding of every line the assembler accepts decodes to the line's mnemonic and operands, and every
legal word with its ignored bits cleared is the canonical encoding of its command. The lines it accepts are enough (R84): it
gives the line of every instruction, and `TRC` with a mode name, their canonical encoding. -/
def Obligations.AssemblyRoundTrip : Prop :=
  (∀ i : Instr, assemble i.line = some (encode i)) ∧
  (∀ m : Mode, assemble ⟨.trc, [.modeName m]⟩ = some (encode (.trc m))) ∧
  (∀ (l : AsmLine) (w : Command), assemble l = some w → ∃ i, decode w = .ok i ∧ i.line = l.canonical) ∧
  ∀ (w : Command) (i : Instr), decode w = .ok i → encode i = w &&& ~~~ignoredBits i

/-- 30_encoding R76: words that differ in ignored bits only are the same command, the example of the rule, and a canonical
encoding has every ignored bit 0. -/
def Obligations.IgnoredBitsChangeNothing : Prop :=
  (∀ (w w' : Command) (i : Instr), decode w = .ok i → w &&& ~~~ignoredBits i = w' &&& ~~~ignoredBits i →
    decode w' = .ok i) ∧
  decode 0x10FF24 = decode 0x100024 ∧
  ∀ i : Instr, encode i &&& ignoredBits i = 0

/-- 30_encoding R75, 60_exceptions R213: the 223 opcodes outside the map are illegal whatever the immediate, and a word with
one raises `E_ILLEGAL`; a word with one of the 33 is a command. -/
def Obligations.IllegalOpcodesRaise : Prop :=
  (∀ w : Command, (w.extractLsb' 16 8).toNat ∈ legalOpcodes → ∃ i, decode w = .ok i) ∧
  (∀ (w : Command) (s : State), (w.extractLsb' 16 8).toNat ∉ legalOpcodes → present w s = .next (afterError 1 s)) ∧
  ((List.range 256).filter (fun n => n ∉ legalOpcodes)).length = 223 ∧
  (0x000000 : Command).extractLsb' 16 8 = 0x00 ∧ 0x00 ∉ legalOpcodes ∧ 0xFF ∉ legalOpcodes

/-- The lines and words of the table of 30_encoding R84: each line assembles to its word and the word decodes to it. -/
def Obligations.SpecLinesAssemble : Prop :=
  ∀ p ∈ ([(⟨.gfm, [.num 4, .num 0xE]⟩, 0x10004E), (⟨.sbx, [.num 5]⟩, 0x200005), (⟨.sbb, [.num 0x5F]⟩, 0x22005F),
      (⟨.lds, [.num 0xD728]⟩, 0x30D728), (⟨.rdn, [.num 2]⟩, 0x320002), (⟨.wrn, [.num 3, .num 0xF]⟩, 0x33003F),
      (⟨.rdm, [.num 1, .num 0]⟩, 0x340002), (⟨.wrm, [.num 1, .num 1, .num 0xF]⟩, 0x35003F),
      (⟨.rdw, [.num 4]⟩, 0x430004), (⟨.ark, [.num 1]⟩, 0x500001), (⟨.trc, [.modeName .decryption]⟩, 0x600001),
      (⟨.rdtw, [.num 1, .num 2]⟩, 0x640021), (⟨.rdst, []⟩, 0x010000)] : List (AsmLine × Command)),
    assemble p.1 = some p.2 ∧ ∃ i, decode p.2 = .ok i ∧ i.line = p.1.canonical

/-- 30_encoding R85, 00_scope R16: the pseudo-instructions give the function calls they stand for, from any state. -/
def Obligations.PseudoInstructionsMakeTheirCalls : Prop :=
  (∀ (k : Word) (s : State), ∃ t, execList (Pseudo.expand k).expansion s = .next t ∧
    t.W = (expandKey Config.sbox k).words ∧ t.RK = (expandKey Config.sbox k).roundKeys ∧ t.KSV = true ∧
    t.replies = s.replies ++ [⟨false, 0⟩, ⟨false, 0⟩]) ∧
  (∀ (x k : Word) (s : State), ∃ t, execList (Pseudo.encrypt x k).expansion s = .next t ∧
    t.S = encrypt Config.sbox x k ∧ t.K = k ∧
    t.replies = s.replies ++ [⟨false, x⟩, ⟨false, 0⟩, ⟨false, encrypt Config.sbox x k⟩]) ∧
  (∀ (x k : Word) (s : State), ∃ t, execList (Pseudo.decrypt x k).expansion s = .next t ∧
    t.S = decrypt Config.sbox x k ∧ t.K = k ∧
    t.replies = s.replies ++ [⟨false, x⟩, ⟨false, 0⟩, ⟨false, decrypt Config.sbox x k⟩]) ∧
  (∀ (x k : Word) (m : Mode) (s : State), ∃ t, execList (Pseudo.trace x k m).expansion s = .next t ∧
    t.TB = generateTrace Config.sbox x k m ∧ t.TRV = true ∧
    t.replies = s.replies ++ [⟨false, x⟩, ⟨false, 0⟩, ⟨false, pipelineOf Config.sbox m x k⟩]) ∧
  ∀ (i : BitVec 4) (s : State) (h : i.toNat < 11), s.TRV = true →
    ∃ t, execList (Pseudo.rdrec i).expansion s = .next t ∧
      t.replies = s.replies ++ [⟨false, (s.TB[i.toNat]'h).idData⟩, ⟨false, (s.TB[i.toNat]'h).state⟩,
        ⟨false, (s.TB[i.toNat]'h).rk⟩]

/-- A step whose next host action is a command word presents it to the core on the state that is left: a legal word runs the
decoded instruction, any other raises `E_ILLEGAL` (30_encoding R75, R77). How the host's commands reach the core is the model's
choice: assumption log 1. -/
def Obligations.StepRunsDecodedInstruction : Prop :=
  ∀ (s : State) (w : Command) (rest : List HostAction), s.pending = .command w :: rest →
    (∀ i : Instr, decode w = .ok i → step s = exec i { s with pending := rest }) ∧
    ((∀ i : Instr, decode w ≠ .ok i) → step s = .next (afterError 1 { s with pending := rest })) ∧
    step s = present w { s with pending := rest }

/-- The word of an opcode-table row, placed by `withFetchWord`, is the very next instruction to run (model's choice:
assumption log 1). -/
def Obligations.TableWordIsFetched : Prop :=
  ∀ (s : State) (w : Nat) (i : Instr), w < 2 ^ 24 → decodeTableWord 24 w = some i →
    step (s.withFetchWord 24 w) = exec i s

/-- 70_reset_and_hazards R230, R241: the reset input puts every piece of core state at its reset value; with nothing presented
the core stays as it is. The list of host actions is the model's choice (assumption log 1). That the reset input gives no
response, and leaves what the host will still do, is DEDUCED from 47_system R206 and stated by no rule (assumption log 5). -/
def Obligations.ResetInputAndIdleHost : Prop :=
  (∀ (s : State) (rest : List HostAction), s.pending = .reset :: rest →
    step s = .next { State.reset with pending := rest, replies := s.replies }) ∧
  ∀ s : State, s.pending = [] → step s = .next s

/-- 47_system R205: `RDST` answers `STATUS` in its layout and changes nothing; the values a coherent state's `STATUS` takes;
the rule's worked examples. -/
def Obligations.RdstReportsStatus : Prop :=
  DecodesAs 0x01 (fun _ => .rdst) ∧
  (∀ s : State, ∃ v : Word, exec .rdst s = .next { s with replies := s.replies ++ [⟨false, v⟩] } ∧
    v.getLsbD 0 = s.KSV ∧ v.getLsbD 1 = s.TRV ∧ v.getLsbD 2 = decide (s.MODE = .decryption) ∧ v.getLsbD 3 = s.ERR ∧
    v.extractLsb' 4 4 = s.STAGE ∧ v.extractLsb' 8 3 = s.ECODE ∧ v.extractLsb' 11 5 = 0) ∧
  (∀ (s t : State) (v : Word), Coherent s → exec .rdst s = .next t → t.replies = s.replies ++ [⟨false, v⟩] →
    (v.extractLsb' 4 4 = 0 ∨ v.extractLsb' 4 4 = 11) ∧ (v.extractLsb' 4 4 = 11 ↔ v.getLsbD 1 = true) ∧
    (v.getLsbD 1 = false → v.getLsbD 2 = false) ∧ (v.extractLsb' 8 3 = 0 ↔ v.getLsbD 3 = false) ∧
    (v.extractLsb' 8 3).toNat ≤ 4) ∧
  ∀ p ∈ ([([], 0x0000), ([.ldk 0x4AF5, .kexp], 0x0001), ([.trc .encryption], 0x00B3), ([.trc .decryption], 0x00B7),
      ([.ark 0], 0x0308)] : List (List Instr × Word)),
    ∃ t, execList (p.1 ++ [.rdst]) State.reset = .next t ∧ t.replies.getLast? = some ⟨false, p.2⟩

/-- 47_system R206: `RST` leaves exactly the reset state, answers 0, is idempotent, is the only command that clears `ERR`,
`ECODE` and `TRV`, and the rule's worked example. -/
def Obligations.RstRestoresResetState : Prop :=
  DecodesAs 0x02 (fun _ => .rst) ∧
  (∀ s : State, exec .rst s = .next
    { S := 0x0000, K := 0x0000, W := #v[0x00, 0x00, 0x00, 0x00, 0x00, 0x00], KSV := false, TRV := false,
      MODE := .encryption, ERR := false, ECODE := 0, STAGE := 0,
      TB := Vector.replicate 11 ⟨.input, 0, false, 0, false, #v[0, 0, 0, 0, 0, 0]⟩,
      pending := s.pending, replies := s.replies ++ [⟨false, 0x0000⟩] }) ∧
  (∀ s t u : State, exec .rst s = .next t → exec .rst t = .next u → SameData t u ∧ u.ERR = t.ERR ∧ u.ECODE = t.ECODE) ∧
  (∀ (i : Instr) (s t : State), i ≠ .rst → exec i s = .next t →
    (s.ERR = true → t.ERR = true ∧ t.ECODE = s.ECODE) ∧ (s.TRV = true → t.TRV = true)) ∧
  ∀ s : State, ∃ t, execList [.rst, .rdst, .rds, .rdw 0] s = .next t ∧
    t.replies = s.replies ++ [⟨false, 0x0000⟩, ⟨false, 0x0000⟩, ⟨false, 0x0000⟩, ⟨true, 0x0003⟩]

/-- 10_state R35: every piece of state after reset, and the two files that cannot be read then. -/
def Obligations.ResetValues : Prop :=
  State.reset.S = 0x0000 ∧ State.reset.K = 0x0000 ∧ (∀ i : Fin 6, State.reset.W[i] = 0x00) ∧
  State.reset.KSV = false ∧ State.reset.TRV = false ∧ State.reset.MODE.bit = 0 ∧ State.reset.ERR = false ∧
  State.reset.ECODE = 0 ∧ State.reset.STAGE = 0 ∧
  (∀ i : Fin 11, State.reset.TB[i].id.code = 0 ∧ State.reset.TB[i].state = 0 ∧ State.reset.TB[i].has_rk = false ∧
    State.reset.TB[i].rk = 0 ∧ State.reset.TB[i].has_words = false ∧ ∀ j : Fin 6, State.reset.TB[i].words[j] = 0) ∧
  State.reset.STATUS = 0x0000 ∧
  (∀ i : BitVec 3, i.toNat ≤ 5 → exec (.rdw i) State.reset = .next (afterError 3 State.reset)) ∧
  (∀ i : BitVec 2, i.toNat ≤ 2 → exec (.rdrk i) State.reset = .next (afterError 3 State.reset) ∧
    exec (.ark i) State.reset = .next (afterError 3 State.reset)) ∧
  (∀ i : BitVec 4, i.toNat ≤ 10 → exec (.rdti i) State.reset = .next (afterError 4 State.reset) ∧
    exec (.rdts i) State.reset = .next (afterError 4 State.reset) ∧
    exec (.rdtk i) State.reset = .next (afterError 4 State.reset)) ∧
  ∀ (i : BitVec 4) (j : BitVec 3), i.toNat ≤ 10 → j.toNat ≤ 5 →
    exec (.rdtw i j) State.reset = .next (afterError 4 State.reset)

/-- 40_gf_arith R95, R92: `GFM` answers the product of its operands modulo x⁴+x+1 and changes nothing else. -/
def Obligations.GfmAnswersPolynomialProduct : Prop :=
  DecodesAs 0x10 (fun w => .gfm (w.extractLsb' 4 4) (w.extractLsb' 0 4)) ∧
  (∀ a b : Nibble, gfMultiply a b = polyProduct a b) ∧ (∀ a : Nibble, gfMultiply 2 a = xtime a) ∧
  ∀ (a b : Nibble) (s : State),
    exec (.gfm a b) s = .next { s with replies := s.replies ++ [⟨false, (polyProduct a b).setWidth 16⟩] }

/-- 40_gf_arith R93, R96: the field laws of `gfMultiply`, with its eight inverse pairs. -/
def Obligations.GfMultiplyIsFieldMultiplication : Prop :=
  (∀ a b : Nibble, gfMultiply a b = gfMultiply b a) ∧
  (∀ a b c : Nibble, gfMultiply (gfMultiply a b) c = gfMultiply a (gfMultiply b c)) ∧
  (∀ a b c : Nibble, gfMultiply a (b ^^^ c) = gfMultiply a b ^^^ gfMultiply a c) ∧
  (∀ a : Nibble, gfMultiply 1 a = a ∧ gfMultiply a 1 = a ∧ gfMultiply 0 a = 0 ∧ gfMultiply a 0 = 0) ∧
  (∀ a b : Nibble, gfMultiply a b = 0 → a = 0 ∨ b = 0) ∧
  (∀ a : Nibble, a ≠ 0 → ∃ b, gfMultiply a b = 1 ∧ ∀ c, gfMultiply a c = 1 → c = b) ∧
  ∀ p ∈ ([(0x1, 0x1), (0x2, 0x9), (0x3, 0xE), (0x4, 0xD), (0x5, 0xB), (0x6, 0x7), (0x8, 0xF), (0xA, 0xC)] :
    List (Nibble × Nibble)), gfMultiply p.1 p.2 = 1

/-- 41_sbox R105 to R108: the four substitution commands answer the table's value and change nothing else, and `SBX` and
`ISBX` undo each other. -/
def Obligations.SubstitutionCommandsLookUp : Prop :=
  DecodesAs 0x20 (fun w => .sbx (w.extractLsb' 0 4)) ∧ DecodesAs 0x21 (fun w => .isbx (w.extractLsb' 0 4)) ∧
  DecodesAs 0x22 (fun w => .sbb (w.extractLsb' 0 8)) ∧ DecodesAs 0x23 (fun w => .isbb (w.extractLsb' 0 8)) ∧
  (∀ (n : Nibble) (s : State),
    exec (.sbx n) s = .next { s with replies := s.replies ++ [⟨false, (Config.sbox n).setWidth 16⟩] }) ∧
  (∀ (n : Nibble) (s : State),
    exec (.isbx n) s = .next { s with replies := s.replies ++ [⟨false, (Config.sbox.symm n).setWidth 16⟩] }) ∧
  (∀ (h l : Nibble) (s : State), exec (.sbb (h ++ l)) s = .next
    { s with replies := s.replies ++ [⟨false, ((0 : Byte) ++ Config.sbox h ++ Config.sbox l)⟩] }) ∧
  (∀ (h l : Nibble) (s : State), exec (.isbb (h ++ l)) s = .next
    { s with replies := s.replies ++ [⟨false, ((0 : Byte) ++ Config.sbox.symm h ++ Config.sbox.symm l)⟩] }) ∧
  (∀ (n : Nibble) (s : State), ∃ t u, exec (.sbx n) s = .next t ∧ exec (.isbx (Config.sbox n)) t = .next u ∧
    u.replies.getLast? = some ⟨false, n.setWidth 16⟩) ∧
  ∀ (n : Nibble) (s : State), ∃ t u, exec (.isbx n) s = .next t ∧ exec (.sbx (Config.sbox.symm n)) t = .next u ∧
    u.replies.getLast? = some ⟨false, n.setWidth 16⟩

/-- 41_sbox R102, R103: the substitutions are table lookups, nibble by nibble, and undo each other, for every S-Box. -/
def Obligations.SubstitutionsAreInverse : Prop :=
  ∀ (σ : SBox) (f : Bool),
    (∀ n : Nibble, substituteNibble σ n f = if f then σ.symm n else σ n) ∧
    (∀ h l : Nibble, substituteByte σ (h ++ l) f = substituteNibble σ h f ++ substituteNibble σ l f) ∧
    (∀ n : Nibble, substituteNibble σ (substituteNibble σ n f) (!f) = n) ∧
    (∀ b : Byte, substituteByte σ (substituteByte σ b f) (!f) = b) ∧
    ∀ v : Word, substituteNibbles σ (substituteNibbles σ v f) (!f) = v

/-- 42_codec R120: the codec's round trips, in both directions. -/
def Obligations.CodecRoundTrips : Prop :=
  (∀ s : Word, fromMatrix (toMatrix s) = s ∧ fromNibbles (toNibbles s) = s) ∧
  (∀ q : Nibbles, toNibbles (fromNibbles q) = q) ∧
  ∀ m : NibbleMatrix, toMatrix (fromMatrix m) = m

/-- 42_codec R121, R122: `LDS` loads `S` and answers it; `RDS` answers `S` and changes nothing. -/
def Obligations.StateIsLoadedAndRead : Prop :=
  DecodesAs 0x30 (fun w => .lds (w.extractLsb' 0 16)) ∧ DecodesAs 0x31 (fun _ => .rds) ∧
  (∀ (v : Word) (s : State), exec (.lds v) s = .next { s with S := v, replies := s.replies ++ [⟨false, v⟩] }) ∧
  (∀ s : State, exec .rds s = .next { s with replies := s.replies ++ [⟨false, s.S⟩] }) ∧
  exec .rds State.reset = .next { State.reset with replies := [⟨false, 0x0000⟩] }

/-- 42_codec R123, R124: `RDN` answers nibble `i`; `WRN` writes it and keeps the other three; four writes build any state. -/
def Obligations.NibbleIsReadAndWritten : Prop :=
  DecodesAs 0x32 (fun w => .rdn (w.extractLsb' 0 2)) ∧
  DecodesAs 0x33 (fun w => .wrn (w.extractLsb' 4 2) (w.extractLsb' 0 4)) ∧
  (∀ (i : BitVec 2) (s : State),
    exec (.rdn i) s = .next { s with replies := s.replies ++ [⟨false, (s.S >>> (12 - 4 * i.toNat)) &&& 0xF⟩] }) ∧
  (∀ (i : BitVec 2) (v : Nibble) (s : State), ∃ x : Word,
    exec (.wrn i v) s = .next { s with S := x, replies := s.replies ++ [⟨false, x⟩] } ∧
    (x >>> (12 - 4 * i.toNat)) &&& 0xF = v.setWidth 16 ∧
    ∀ j : BitVec 2, j ≠ i → (x >>> (12 - 4 * j.toNat)) &&& 0xF = (s.S >>> (12 - 4 * j.toNat)) &&& 0xF) ∧
  ∀ (a b c d : Nibble) (s : State), ∃ t, execList [.wrn 0 a, .wrn 1 b, .wrn 2 c, .wrn 3 d] s = .next t ∧
    t.S = a ++ b ++ c ++ d

/-- 42_codec R125, R126: `RDM` answers the cell in row `r`, column `c`, which is nibble `r + 2c`; `WRM` writes it exactly as
`WRN` of that nibble does. -/
def Obligations.MatrixCellIsReadAndWritten : Prop :=
  DecodesAs 0x34 (fun w => .rdm (w.extractLsb' 1 1) (w.extractLsb' 0 1)) ∧
  DecodesAs 0x35 (fun w => .wrm (w.extractLsb' 5 1) (w.extractLsb' 4 1) (w.extractLsb' 0 4)) ∧
  (∀ (r c : BitVec 1) (s : State), exec (.rdm r c) s = .next
    { s with replies := s.replies ++ [⟨false, (s.S >>> (12 - 4 * (r.toNat + 2 * c.toNat))) &&& 0xF⟩] }) ∧
  ∀ (r c : BitVec 1) (v : Nibble) (s : State), ∃ x : Word,
    exec (.wrm r c v) s = .next { s with S := x, replies := s.replies ++ [⟨false, x⟩] } ∧
    exec (.wrm r c v) s = exec (.wrn (BitVec.ofNat 2 (r.toNat + 2 * c.toNat)) v) s

/-- 42_codec R119, R127: `RTN` answers the byte with its nibbles swapped; the swap is self-inverse, with sixteen fixed
points. -/
def Obligations.RtnSwapsNibbles : Prop :=
  DecodesAs 0x36 (fun w => .rtn (w.extractLsb' 0 8)) ∧
  (∀ (h l : Nibble) (s : State), exec (.rtn (h ++ l)) s = .next
    { s with replies := s.replies ++ [⟨false, (0 : Byte) ++ l ++ h⟩] }) ∧
  (∀ b : Byte, rotateNibblesInByte b = ((b &&& 0xF) <<< 4) ||| (b >>> 4)) ∧
  (∀ b : Byte, rotateNibblesInByte (rotateNibblesInByte b) = b) ∧
  ∀ b : Byte, rotateNibblesInByte b = b ↔ b.extractLsb' 4 4 = b.extractLsb' 0 4

/-- 43_key_schedule R140, R141: `LDK` loads `K`, clears `KSV` even for the same key, and answers 0; `RDK` answers `K` and
changes nothing; no command but `LDK` and `RST` changes `K`. -/
def Obligations.KeyIsLoadedAndRead : Prop :=
  DecodesAs 0x40 (fun w => .ldk (w.extractLsb' 0 16)) ∧ DecodesAs 0x41 (fun _ => .rdk) ∧
  (∀ (v : Word) (s : State),
    exec (.ldk v) s = .next { s with K := v, KSV := false, replies := s.replies ++ [⟨false, 0x0000⟩] }) ∧
  (∀ s : State, exec .rdk s = .next { s with replies := s.replies ++ [⟨false, s.K⟩] }) ∧
  exec .rdk State.reset = .next { State.reset with replies := [⟨false, 0x0000⟩] } ∧
  ∀ (i : Instr) (s t : State), (∀ v, i ≠ .ldk v) → i ≠ .rst → exec i s = .next t → t.K = s.K

/-- 43_key_schedule R135, R142: `KEXP` writes the six words that the algorithm makes from `K`, so that `RK` holds its three
round keys, sets `KSV` and answers 0; a second run changes nothing. -/
def Obligations.KexpRunsKeySchedule : Prop :=
  DecodesAs 0x42 (fun _ => .kexp) ∧
  (∀ (σ : SBox) (key : Word), IsScheduleOf σ key (expandKey σ key).words ∧
    (expandKey σ key).roundKeys = roundKeysOf (expandKey σ key).words) ∧
  (∀ s : State, ∃ w : Vector Byte 6, IsScheduleOf Config.sbox s.K w ∧
    exec .kexp s = .next { s with W := w, KSV := true, replies := s.replies ++ [⟨false, 0x0000⟩] } ∧
    roundKeysOf w = (expandKey Config.sbox s.K).roundKeys) ∧
  ∀ s t u : State, exec .kexp s = .next t → exec .kexp t = .next u →
    u = { t with replies := t.replies ++ [⟨false, 0x0000⟩] }

/-- 43_key_schedule R137 (a), (b), (c): `K0` is the key, and the odd words in terms of the key's halves, for every S-Box. -/
def Obligations.KeyScheduleConsequences : Prop :=
  ∀ (σ : SBox) (key : Word),
    let r := expandKey σ key
    r.roundKeys[0] = key ∧ r.words[0] ++ r.words[1] = key ∧
    r.words[3] = r.words[0] ^^^ r.words[1] ^^^ innerStep σ r.words[1] 0x80 ∧
    r.words[5] = r.words[1] ^^^ innerStep σ r.words[3] 0x30

/-- 43_key_schedule R143: `RDW` answers word `i`; `E_INDEX` for 6 and 7, checked first; `E_NOKEY` with no valid schedule. -/
def Obligations.RdwReadsWord : Prop :=
  DecodesAs 0x43 (fun w => .rdw (w.extractLsb' 0 3)) ∧
  ∀ (i : BitVec 3) (s : State),
    (∀ h : i.toNat < 6, s.KSV = true → exec (.rdw i) s = .next
      { s with replies := s.replies ++ [⟨false, (0 : Byte) ++ (s.W[i.toNat]'h)⟩] }) ∧
    (5 < i.toNat → exec (.rdw i) s = .next (afterError 2 s)) ∧
    (i.toNat ≤ 5 → s.KSV = false → exec (.rdw i) s = .next (afterError 3 s))

/-- 43_key_schedule R144, 10_state R23: `RDRK` answers round key `i`, the words `2i` and `2i+1` joined; `E_INDEX` for 3, checked
first; `E_NOKEY` with no valid schedule; round key 0 of a coherent state is `K`. -/
def Obligations.RdrkReadsRoundKey : Prop :=
  DecodesAs 0x44 (fun w => .rdrk (w.extractLsb' 0 2)) ∧
  (∀ s : State, s.RK = #v[s.W[0] ++ s.W[1], s.W[2] ++ s.W[3], s.W[4] ++ s.W[5]]) ∧
  (∀ (i : BitVec 2) (s : State),
    (∀ h : i.toNat < 3, s.KSV = true → exec (.rdrk i) s = .next
      { s with replies := s.replies ++ [⟨false, s.RK[i.toNat]'h⟩] }) ∧
    (2 < i.toNat → exec (.rdrk i) s = .next (afterError 2 s)) ∧
    (i.toNat ≤ 2 → s.KSV = false → exec (.rdrk i) s = .next (afterError 3 s))) ∧
  ∀ s : State, Coherent s → s.KSV = true → exec (.rdrk 0) s = .next { s with replies := s.replies ++ [⟨false, s.K⟩] }

/-- 44_round_engine R160: `ARK` adds round key `i` to `S`; `E_INDEX` for 3, checked first; `E_NOKEY` with no valid schedule;
twice restores `S`; in a coherent state index 0 adds `K`. -/
def Obligations.ArkAddsRoundKey : Prop :=
  DecodesAs 0x50 (fun w => .ark (w.extractLsb' 0 2)) ∧
  (∀ (i : BitVec 2) (s : State),
    (∀ h : i.toNat < 3, s.KSV = true → exec (.ark i) s = .next
      { s with S := s.S ^^^ s.RK[i.toNat]'h, replies := s.replies ++ [⟨false, s.S ^^^ s.RK[i.toNat]'h⟩] }) ∧
    (2 < i.toNat → exec (.ark i) s = .next (afterError 2 s)) ∧
    (i.toNat ≤ 2 → s.KSV = false → exec (.ark i) s = .next (afterError 3 s))) ∧
  (∀ (i : BitVec 2) (s : State), i.toNat < 3 → s.KSV = true →
    ∃ t, execList [.ark i, .ark i] s = .next t ∧ SameData s t) ∧
  ∀ s : State, Coherent s → s.KSV = true →
    exec (.ark 0) s = .next { s with S := s.S ^^^ s.K, replies := s.replies ++ [⟨false, s.S ^^^ s.K⟩] }

/-- 44_round_engine R161: `ARKI` adds its operand to `S`; 0x0000 leaves `S`, 0xFFFF complements it, twice restores it. -/
def Obligations.ArkiAddsOperand : Prop :=
  DecodesAs 0x51 (fun w => .arki (w.extractLsb' 0 16)) ∧
  (∀ (v : Word) (s : State),
    exec (.arki v) s = .next { s with S := s.S ^^^ v, replies := s.replies ++ [⟨false, s.S ^^^ v⟩] }) ∧
  (∀ s : State, exec (.arki 0x0000) s = .next { s with replies := s.replies ++ [⟨false, s.S⟩] }) ∧
  (∀ s : State, exec (.arki 0xFFFF) s = .next { s with S := ~~~s.S, replies := s.replies ++ [⟨false, ~~~s.S⟩] }) ∧
  ∀ (v : Word) (s : State), ∃ t, execList [.arki v, .arki v] s = .next t ∧ SameData s t

/-- 44_round_engine R151, R162, R163: `SUBN` and `ISUBN` substitute each nibble of `S` in its place. -/
def Obligations.SubnSubstitutesEachNibble : Prop :=
  DecodesAs 0x52 (fun _ => .subn) ∧ DecodesAs 0x53 (fun _ => .isubn) ∧
  (∀ (n0 n1 n2 n3 : Nibble) (s : State), s.S = n0 ++ n1 ++ n2 ++ n3 →
    exec .subn s = .next { s with
      S := Config.sbox n0 ++ Config.sbox n1 ++ Config.sbox n2 ++ Config.sbox n3
      replies := s.replies ++ [⟨false, Config.sbox n0 ++ Config.sbox n1 ++ Config.sbox n2 ++ Config.sbox n3⟩] }) ∧
  (∀ (n0 n1 n2 n3 : Nibble) (s : State), s.S = n0 ++ n1 ++ n2 ++ n3 →
    exec .isubn s = .next { s with
      S := Config.sbox.symm n0 ++ Config.sbox.symm n1 ++ Config.sbox.symm n2 ++ Config.sbox.symm n3
      replies := s.replies ++
        [⟨false, Config.sbox.symm n0 ++ Config.sbox.symm n1 ++ Config.sbox.symm n2 ++ Config.sbox.symm n3⟩] }) ∧
  ∀ s : State, (∃ t, execList [.subn, .isubn] s = .next t ∧ SameData s t) ∧
    ∃ t, execList [.isubn, .subn] s = .next t ∧ SameData s t

/-- 44_round_engine R154, R155, R164, R165: `MIXC` and `IMIXC` multiply each column of `S` by their constant matrix; each
undoes the other; the rules' worked examples. -/
def Obligations.MixcMultipliesColumns : Prop :=
  DecodesAs 0x54 (fun _ => .mixc) ∧ DecodesAs 0x55 (fun _ => .imixc) ∧
  (∀ (n0 n1 n2 n3 : Nibble) (s : State), s.S = n0 ++ n1 ++ n2 ++ n3 → ∃ v : Word,
    v = (n0 ^^^ polyProduct 4 n1) ++ (polyProduct 4 n0 ^^^ n1) ++ (n2 ^^^ polyProduct 4 n3) ++ (polyProduct 4 n2 ^^^ n3) ∧
    exec .mixc s = .next { s with S := v, replies := s.replies ++ [⟨false, v⟩] }) ∧
  (∀ (n0 n1 n2 n3 : Nibble) (s : State), s.S = n0 ++ n1 ++ n2 ++ n3 → ∃ v : Word,
    v = (polyProduct 9 n0 ^^^ polyProduct 2 n1) ++ (polyProduct 2 n0 ^^^ polyProduct 9 n1) ++
      (polyProduct 9 n2 ^^^ polyProduct 2 n3) ++ (polyProduct 2 n2 ^^^ polyProduct 9 n3) ∧
    exec .imixc s = .next { s with S := v, replies := s.replies ++ [⟨false, v⟩] }) ∧
  (∀ s : State, (∃ t, execList [.mixc, .imixc] s = .next t ∧ SameData s t) ∧
    ∃ t, execList [.imixc, .mixc] s = .next t ∧ SameData s t) ∧
  mixColumns 0x2EEE = 0xF633 ∧ mixColumns 0x0000 = 0x0000 ∧ mixColumns 0xFFFF = 0x6666 ∧
  invMixColumns 0xF633 = 0x2EEE ∧ invMixColumns 0xFFFF = 0x3333

/-- 44_round_engine R153, R166: `SHRW` exchanges nibbles 1 and 3 of `S`; twice restores `S`; its fixed points. -/
def Obligations.ShrwSwapsSecondRow : Prop :=
  DecodesAs 0x56 (fun _ => .shrw) ∧
  (∀ s : State, ∃ v : Word,
    v = s.S.extractLsb' 12 4 ++ s.S.extractLsb' 0 4 ++ s.S.extractLsb' 4 4 ++ s.S.extractLsb' 8 4 ∧
    exec .shrw s = .next { s with S := v, replies := s.replies ++ [⟨false, v⟩] }) ∧
  (∀ s : State, ∃ t, execList [.shrw, .shrw] s = .next t ∧ SameData s t) ∧
  (∀ v : Word, shiftRow v = v ↔ v.extractLsb' 8 4 = v.extractLsb' 0 4) ∧
  shiftRow 0x1234 = 0x1432 ∧ shiftRow 0x2EEE = 0x2EEE

/-- 44_round_engine R158: the inverse laws of the engine, for every S-Box. -/
def Obligations.EngineInverseLaws : Prop :=
  (∀ s k : Word, addRoundKey (addRoundKey s k) k = s) ∧
  (∀ (σ : SBox) (s : Word), substituteNibbles σ (substituteNibbles σ s false) true = s ∧
    substituteNibbles σ (substituteNibbles σ s true) false = s) ∧
  (∀ s : Word, invMixColumns (mixColumns s) = s ∧ mixColumns (invMixColumns s) = s) ∧
  ∀ s : Word, shiftRow (shiftRow s) = s

/-- 44_round_engine R157: three transforms are linear over XOR and fix 0. -/
def Obligations.EngineIsLinear : Prop :=
  ∀ f ∈ [shiftRow, mixColumns, invMixColumns], (∀ a b : Word, f (a ^^^ b) = f a ^^^ f b) ∧ f 0 = 0

/-- 44_round_engine R152: the substitutions commute with `shiftRow`, and with every rearrangement `p` of the nibbles, for every
S-Box. -/
def Obligations.SubstitutionCommutesWithShiftRow : Prop :=
  ∀ (σ : SBox) (s : Word) (f : Bool),
    shiftRow (substituteNibbles σ s f) = substituteNibbles σ (shiftRow s) f ∧
    ∀ p : Fin 4 → Fin 4,
      let rearrange (v : Word) : Word :=
        fromNibbles #v[(toNibbles v)[p 0], (toNibbles v)[p 1], (toNibbles v)[p 2], (toNibbles v)[p 3]]
      rearrange (substituteNibbles σ s f) = substituteNibbles σ (rearrange s) f

/-- 44_round_engine R156: each mix function applies one byte function, its matrix on one column, to each column; the
columns do not interact. -/
def Obligations.ColumnsDoNotInteract : Prop :=
  (∃ f : Byte → Byte, (∀ a b : Nibble, f (a ++ b) = (a ^^^ polyProduct 4 b) ++ (polyProduct 4 a ^^^ b)) ∧
    ∀ h l : Byte, mixColumns (h ++ l) = f h ++ f l) ∧
  ∃ f : Byte → Byte,
    (∀ a b : Nibble, f (a ++ b) = (polyProduct 9 a ^^^ polyProduct 2 b) ++ (polyProduct 2 a ^^^ polyProduct 9 b)) ∧
    ∀ h l : Byte, invMixColumns (h ++ l) = f h ++ f l

/-- 45_pipeline R180: `ENC` runs the key schedule and the encryption pipeline, and has the effect of the nine commands the
rule lists. -/
def Obligations.EncIsItsCommandSequence : Prop :=
  DecodesAs 0x58 (fun _ => .enc) ∧
  (∀ s : State, ∃ w : Vector Byte 6, IsScheduleOf Config.sbox s.K w ∧ exec .enc s = .next
    { s with S := encrypt Config.sbox s.S s.K, W := w, KSV := true,
             replies := s.replies ++ [⟨false, encrypt Config.sbox s.S s.K⟩] }) ∧
  ∀ s : State, ∃ t u, exec .enc s = .next t ∧
    execList [.kexp, .ark 0, .subn, .shrw, .mixc, .ark 1, .subn, .shrw, .ark 2] s = .next u ∧ SameData t u

/-- 45_pipeline R181: `DEC` runs the key schedule and the decryption pipeline, has the effect of the nine commands the rule
lists, and undoes `ENC`, as `ENC` undoes it. -/
def Obligations.DecIsItsCommandSequence : Prop :=
  DecodesAs 0x59 (fun _ => .dec) ∧
  (∀ s : State, ∃ w : Vector Byte 6, IsScheduleOf Config.sbox s.K w ∧ exec .dec s = .next
    { s with S := decrypt Config.sbox s.S s.K, W := w, KSV := true,
             replies := s.replies ++ [⟨false, decrypt Config.sbox s.S s.K⟩] }) ∧
  (∀ s : State, ∃ t u, exec .dec s = .next t ∧
    execList [.kexp, .ark 2, .shrw, .isubn, .ark 1, .imixc, .shrw, .isubn, .ark 0] s = .next u ∧ SameData t u) ∧
  ∀ s : State, (∃ t, execList [.enc, .dec] s = .next t ∧ t.S = s.S) ∧ ∃ t, execList [.dec, .enc] s = .next t ∧ t.S = s.S

/-- 45_pipeline R177, R178: decryption undoes encryption and the converse, for every S-Box, state and key, and the states of
the decryption of a ciphertext are those of its encryption in reverse order. -/
def Obligations.DecryptInvertsEncrypt : Prop :=
  ∀ (σ : SBox) (x key : Word), decrypt σ (encrypt σ x key) key = x ∧ encrypt σ (decrypt σ x key) key = x ∧
    ∀ i : Fin 11, (generateTrace σ (encrypt σ x key) key .decryption)[i].state =
      (generateTrace σ x key .encryption)[i.rev].state

/-- 46_trace R190, R191: `TRC` leaves in the trace buffer exactly the trace of `S` and `K` in its mode, the pipeline's result in
`S`, the schedule in `W`, and the sequencer halted at stage 11; the states, round keys and words of a trace, spelled out; its
Trace Steps are its records with the host's two texts. -/
def Obligations.TrcRunsSequencer : Prop :=
  DecodesAs 0x60 (fun w => .trc (if w.getLsbD 0 then .decryption else .encryption)) ∧
  (∀ (m : Mode) (s : State), ∃ w : Vector Byte 6, IsScheduleOf Config.sbox s.K w ∧ exec (.trc m) s = .next
    { s with
      S := pipelineOf Config.sbox m s.S s.K, W := w, KSV := true, TRV := true, MODE := m, STAGE := 11,
      TB := generateTrace Config.sbox s.S s.K m,
      replies := s.replies ++ [⟨false, pipelineOf Config.sbox m s.S s.K⟩] } ∧
    pipelineOf Config.sbox m s.S s.K = (generateTrace Config.sbox s.S s.K m)[10].state) ∧
  (∀ (σ : SBox) (x key : Word),
    let ks := expandKey σ key
    (let s2 := x ^^^ ks.roundKeys[0]
     let s3 := substituteNibbles σ s2 false
     let s4 := shiftRow s3
     let s5 := mixColumns s4
     let s6 := s5 ^^^ ks.roundKeys[1]
     let s7 := substituteNibbles σ s6 false
     let s8 := shiftRow s7
     let s9 := s8 ^^^ ks.roundKeys[2]
     (generateTrace σ x key .encryption).toList.map (fun r => (r.state, r.rk)) =
       [(x, (0 : Word)), (x, 0), (s2, ks.roundKeys[0]), (s3, 0), (s4, 0), (s5, 0), (s6, ks.roundKeys[1]), (s7, 0), (s8, 0),
         (s9, ks.roundKeys[2]), (s9, 0)]) ∧
    (let t2 := x ^^^ ks.roundKeys[2]
     let t3 := shiftRow t2
     let t4 := substituteNibbles σ t3 true
     let t5 := t4 ^^^ ks.roundKeys[1]
     let t6 := invMixColumns t5
     let t7 := shiftRow t6
     let t8 := substituteNibbles σ t7 true
     let t9 := t8 ^^^ ks.roundKeys[0]
     (generateTrace σ x key .decryption).toList.map (fun r => (r.state, r.rk)) =
       [(x, (0 : Word)), (x, 0), (t2, ks.roundKeys[2]), (t3, 0), (t4, 0), (t5, ks.roundKeys[1]), (t6, 0), (t7, 0), (t8, 0),
         (t9, ks.roundKeys[0]), (t9, 0)]) ∧
    ∀ m : Mode, (generateTrace σ x key m)[1].words = ks.words) ∧
  ∀ (σ : SBox) (x key : Word) (m : Mode),
    let tr := generateTrace σ x key m
    (traceSteps σ x key m).length = 11 ∧
    ∀ i : Fin 11, (traceSteps σ x key m)[i.val]? = some ⟨tr[i], Config.descr tr[i] m,
      Config.detail tr[i] m (if i = 0 then none else tr.toList[i.val - 1]?)⟩

/-- 46_trace R186, R192: the shape of a trace, for every S-Box, input, key and mode: eleven records with the
identifiers of the mode in order, round keys on the AddRoundKey records only, words on record 1 only. -/
def Obligations.TraceShape : Prop :=
  ∀ (σ : SBox) (x key : Word) (m : Mode),
    let tr := generateTrace σ x key m
    let ks := expandKey σ key
    tr.toList.map (fun r => r.id.code.toNat) = (match m with
      | .encryption => [0x00, 0x01, 0x02, 0x03, 0x04, 0x05, 0x06, 0x07, 0x08, 0x09, 0x0A]
      | .decryption => [0x00, 0x01, 0x12, 0x13, 0x14, 0x15, 0x16, 0x17, 0x18, 0x19, 0x0A]) ∧
    tr.toList.map (fun r => if r.has_rk then some r.rk else none) = (match m with
      | .encryption => [none, none, some ks.roundKeys[0], none, none, none, some ks.roundKeys[1], none, none,
          some ks.roundKeys[2], none]
      | .decryption => [none, none, some ks.roundKeys[2], none, none, some ks.roundKeys[1], none, none, none,
          some ks.roundKeys[0], none]) ∧
    tr.toList.map (fun r => if r.has_words then some r.words else none) =
      [none, some ks.words, none, none, none, none, none, none, none, none, none] ∧
    (∀ i : Fin 11, tr[i].has_rk = false → tr[i].rk = 0) ∧
    (∀ i : Fin 11, tr[i].has_words = false → tr[i].words = Vector.replicate 6 0) ∧
    tr[0].state = x ∧ tr[1].state = x ∧ tr[9].state = pipelineOf σ m x key ∧ tr[10].state = pipelineOf σ m x key

/-- 46_trace R194: the trace of the decryption of a ciphertext mirrors the trace of its encryption, for every S-Box. -/
def Obligations.TraceMirror : Prop :=
  ∀ (σ : SBox) (x key : Word),
    let e := generateTrace σ x key .encryption
    let d := generateTrace σ e[10].state key .decryption
    (∀ i : Fin 11, d[i].state = e[i.rev].state) ∧
    d[2].rk = e[9].rk ∧ e[9].rk = (expandKey σ key).roundKeys[2] ∧
    d[5].rk = e[6].rk ∧ e[6].rk = (expandKey σ key).roundKeys[1] ∧
    d[9].rk = e[2].rk ∧ e[2].rk = (expandKey σ key).roundKeys[0] ∧
    d[1].words = e[1].words ∧ d[10].state = x

/-- 46_trace R196: `RDTI` answers the identifier and the presence flags of record `i`; `E_INDEX` past 10, checked first;
`E_NOTRACE` with no valid trace. -/
def Obligations.RdtiReadsIdentifier : Prop :=
  DecodesAs 0x61 (fun w => .rdti (w.extractLsb' 0 4)) ∧
  ∀ (i : BitVec 4) (s : State),
    (∀ h : i.toNat < 11, s.TRV = true → ∃ v : Word,
      exec (.rdti i) s = .next { s with replies := s.replies ++ [⟨false, v⟩] } ∧
      v.extractLsb' 0 5 = (s.TB[i.toNat]'h).id.code ∧ v.extractLsb' 5 3 = 0 ∧
      v.getLsbD 8 = (s.TB[i.toNat]'h).has_rk ∧ v.getLsbD 9 = (s.TB[i.toNat]'h).has_words ∧ v.extractLsb' 10 6 = 0) ∧
    (10 < i.toNat → exec (.rdti i) s = .next (afterError 2 s)) ∧
    (i.toNat ≤ 10 → s.TRV = false → exec (.rdti i) s = .next (afterError 4 s))

/-- 46_trace R197, R198: `RDTS` and `RDTK` answer the state and the round key of record `i`; `E_INDEX` past 10, checked first;
`E_NOTRACE` with no valid trace; in a coherent state a record without a round key answers 0. -/
def Obligations.RdtsAndRdtkReadRecord : Prop :=
  DecodesAs 0x62 (fun w => .rdts (w.extractLsb' 0 4)) ∧ DecodesAs 0x63 (fun w => .rdtk (w.extractLsb' 0 4)) ∧
  (∀ (i : BitVec 4) (s : State),
    (∀ h : i.toNat < 11, s.TRV = true →
      exec (.rdts i) s = .next { s with replies := s.replies ++ [⟨false, (s.TB[i.toNat]'h).state⟩] } ∧
      exec (.rdtk i) s = .next { s with replies := s.replies ++ [⟨false, (s.TB[i.toNat]'h).rk⟩] }) ∧
    (10 < i.toNat → exec (.rdts i) s = .next (afterError 2 s) ∧ exec (.rdtk i) s = .next (afterError 2 s)) ∧
    (i.toNat ≤ 10 → s.TRV = false →
      exec (.rdts i) s = .next (afterError 4 s) ∧ exec (.rdtk i) s = .next (afterError 4 s))) ∧
  (∀ (i : BitVec 4) (s : State) (h : i.toNat < 11), (s.TB[i.toNat]'h).matrix = toMatrix (s.TB[i.toNat]'h).state) ∧
  ∀ (i : BitVec 4) (s : State) (h : i.toNat < 11), Coherent s → s.TRV = true → (s.TB[i.toNat]'h).has_rk = false →
    exec (.rdtk i) s = .next { s with replies := s.replies ++ [⟨false, 0x0000⟩] }

/-- 46_trace R199: `RDTW` answers word `j` of record `i`; `E_INDEX` where either index is past its end, checked first;
`E_NOTRACE` with no valid trace; in a coherent state only record 1 has words, those of the traced run, and the others answer 0;
record 1 answers the words of the traced run after a later `LDK` and `KEXP` too. -/
def Obligations.RdtwReadsTracedWord : Prop :=
  DecodesAs 0x64 (fun w => .rdtw (w.extractLsb' 0 4) (w.extractLsb' 4 3)) ∧
  (∀ (i : BitVec 4) (j : BitVec 3) (s : State),
    (∀ (h : i.toNat < 11) (h' : j.toNat < 6), s.TRV = true → exec (.rdtw i j) s = .next
      { s with replies := s.replies ++ [⟨false, (0 : Byte) ++ (s.TB[i.toNat]'h).words[j.toNat]'h'⟩] }) ∧
    (10 < i.toNat ∨ 5 < j.toNat → exec (.rdtw i j) s = .next (afterError 2 s)) ∧
    (i.toNat ≤ 10 → j.toNat ≤ 5 → s.TRV = false → exec (.rdtw i j) s = .next (afterError 4 s))) ∧
  (∀ (s : State) (k : Fin 11), Coherent s → s.TRV = true → (s.TB[k].has_words = true ↔ k = 1)) ∧
  (∀ s : State, Coherent s → s.TRV = true → IsScheduleOf Config.sbox s.tracedKey s.TB[1].words) ∧
  (∀ (j : BitVec 3) (v : Word) (s : State) (h : j.toNat < 6), s.TRV = true →
    ∃ t, execList [.ldk v, .kexp, .rdtw 1 j] s = .next t ∧
      t.replies = s.replies ++ [⟨false, 0⟩, ⟨false, 0⟩, ⟨false, (0 : Byte) ++ s.TB[1].words[j.toNat]'h⟩]) ∧
  (∀ (m : Mode) (j : BitVec 3) (v : Word) (s : State) (h : j.toNat < 6),
    ∃ w t, IsScheduleOf Config.sbox s.K w ∧ execList [.trc m, .ldk v, .kexp, .rdtw 1 j] s = .next t ∧
      t.replies.getLast? = some ⟨false, (0 : Byte) ++ w[j.toNat]'h⟩) ∧
  ∀ (i : BitVec 4) (j : BitVec 3) (s : State), i.toNat ≤ 10 → j.toNat ≤ 5 → i.toNat ≠ 1 → Coherent s → s.TRV = true →
    exec (.rdtw i j) s = .next { s with replies := s.replies ++ [⟨false, 0x0000⟩] }

/-- 20_memory R67: whatever commands other than `TRC` and `RST` run, no cell of the trace buffer changes, and
`TRV`, `MODE` and `STAGE` keep their values. -/
def Obligations.TraceBufferIsStable : Prop :=
  ∀ (cs : List Command) (s : State),
    (∀ c ∈ cs, decode c ≠ .ok .rst ∧ ∀ m, decode c ≠ .ok (.trc m)) →
    (presentAll cs s).TB = s.TB ∧ (presentAll cs s).TRV = s.TRV ∧ (presentAll cs s).MODE = s.MODE ∧
      (presentAll cs s).STAGE = s.STAGE

/-- 60_exceptions R218: error entry. A command that raises an error records it if it is the first, answers its code, and
changes nothing else. -/
def Obligations.ErrorEntry : Prop :=
  ∀ (cmd : Command) (s : State) (e : ErrorKind), errorOf cmd s = some e →
    present cmd s = .next { s with
      ERR := true
      ECODE := if s.ERR then s.ECODE else e.code
      replies := s.replies ++ [⟨true, e.code.setWidth 16⟩] }

/-- 60_exceptions R217: a command raises the first of the three checks that fails, in their order, and none when all pass;
the rule's examples on the reset state. -/
def Obligations.ErrorPriority : Prop :=
  (∀ (cmd : Command) (s : State), ∃ t r, present cmd s = .next t ∧ t.replies = s.replies ++ [r] ∧
    (r.err = true ↔ (errorOf cmd s).isSome = true) ∧ ∀ e, errorOf cmd s = some e → r.data = e.code.setWidth 16) ∧
  (∀ i : Instr, ¬(i.needsKey = true ∧ i.needsTrace = true)) ∧
  exec (.rdw 6) State.reset = .next (afterError 2 State.reset) ∧
  exec (.rdtw 11 7) State.reset = .next (afterError 2 State.reset)

/-- 10_state R28: `ERR` and `ECODE` hold the first error since reset; a command without an error keeps them; `RST` clears
them. -/
def Obligations.ErrorFlagsAreSticky : Prop :=
  ∀ (cmd : Command) (s t : State), present cmd s = .next t →
    (∀ e, errorOf cmd s = some e → t.ERR = true ∧ t.ECODE = if s.ERR then s.ECODE else e.code) ∧
    (errorOf cmd s = none → decode cmd ≠ .ok .rst → t.ERR = s.ERR ∧ t.ECODE = s.ECODE) ∧
    (decode cmd = .ok .rst → t.ERR = false ∧ t.ECODE = 0)

/-- 60_exceptions R219: a list of commands has the same effect on the data state as the list without its failing
commands. -/
def Obligations.FailingCommandsCanBeRemoved : Prop :=
  ∀ (cs : List Command) (s : State), SameData (presentAll cs s) (presentAll (surviving cs s) s)

/-- 30_encoding R82: every command word gets exactly one response; one with `err` = 1 carries an error's code and the data
state is unchanged. -/
def Obligations.OneResponsePerCommand : Prop :=
  ∀ (cmd : Command) (s : State), ∃ t r, present cmd s = .next t ∧ t.replies = s.replies ++ [r] ∧
    (r.err = true → SameData s t ∧ ∃ e : ErrorKind, errorOf cmd s = some e ∧ r.data = e.code.setWidth 16) ∧
    (r.err = false → errorOf cmd s = none)

/-- 10_state R36: the write matrix. A blank cell is never written; the constants of the other cells; a command that raises an
error writes no column; every command returns a response. -/
def Obligations.WriteMatrix : Prop :=
  ∀ (i : Instr) (s t : State), exec i s = .next t →
    (∀ c : Column, c ∉ i.writes → c.same s t) ∧
    (∀ v, i = .ldk v → t.KSV = false) ∧
    (i = .kexp ∨ i = .enc ∨ i = .dec → t.KSV = true) ∧
    (∀ m, i = .trc m → t.KSV = true ∧ t.TRV = true ∧ t.STAGE = 11) ∧
    (i = .rst → SameData State.reset t) ∧
    ∃ r, t.replies = s.replies ++ [r] ∧ (r.err = true → SameData s t) ∧ t.pending = s.pending

/-- 20_memory R62: a read that succeeds changes nothing and answers the same again; a write repeated leaves the same
state. -/
def Obligations.ReadsHaveNoSideEffect : Prop :=
  (∀ (i : Instr) (s t : State) (v : Word), i.onlyReads = true → exec i s = .next t →
    t.replies = s.replies ++ [⟨false, v⟩] →
    t = { s with replies := s.replies ++ [⟨false, v⟩] } ∧
    exec i t = .next { t with replies := t.replies ++ [⟨false, v⟩] }) ∧
  ∀ (i : Instr) (s t u : State),
    (∃ v, i = .lds v) ∨ (∃ k v, i = .wrn k v) ∨ (∃ r c v, i = .wrm r c v) ∨ (∃ v, i = .ldk v) →
    exec i s = .next t → exec i t = .next u → SameData t u ∧ u.ERR = t.ERR ∧ u.ECODE = t.ECODE

/-- 10_state R34: the invariants hold again after every step, from every state in which they hold. -/
def Obligations.StepKeepsCoherence : Prop := ∀ s t : State, Coherent s → step s = .next t → Coherent t

/-- 10_state R34, R35: the invariants hold after reset. -/
def Obligations.ResetIsCoherent : Prop := Coherent State.reset

/-- 10_state R34: after any sequence of commands from reset the invariants hold, round key 0 of a valid word file is `K`, and
the top bits of `STATUS` are 0. -/
def Obligations.ReachableStatesAreCoherent : Prop :=
  ∀ t : State, Reachable t →
    Coherent t ∧ (t.KSV = true → t.RK[0] = t.K) ∧ t.STATUS.extractLsb' 11 5 = 0

/-- 70_reset_and_hazards R242: states that differ only in `W` behind `KSV` = 0 and `TB` behind `TRV` = 0 give the same
responses to every list of commands. -/
def Obligations.HiddenContentsAreUnobservable : Prop :=
  ∀ (s t : State), Indistinguishable s t → ∀ cs : List Command, ∃ rs : List Response,
    (presentAll cs s).replies = s.replies ++ rs ∧ (presentAll cs t).replies = t.replies ++ rs ∧ rs.length = cs.length

/-- The spec's concrete vector completed with the default table (43_key_schedule R138, 95_test_vectors V40, V41). It rests on
`publishedSbox`, the table of 41_sbox R101, which is general knowledge: assumption log 4. -/
def Obligations.DefaultTableVector : Prop :=
  (expandKey publishedSbox 0x4AF5).words = #v[0x4A, 0xF5, 0xDD, 0x28, 0x87, 0xAF] ∧
  (expandKey publishedSbox 0x4AF5).roundKeys = #v[0x4AF5, 0xDD28, 0x87AF] ∧
  (generateTrace publishedSbox 0xD728 0x4AF5 .encryption).toList.map TraceRecord.state =
    [0xD728, 0xD728, 0x9DDD, 0x2EEE, 0x2EEE, 0xF633, 0x2B1B, 0xA343, 0xA343, 0x24EC, 0x24EC] ∧
  (generateTrace publishedSbox 0x24EC 0x4AF5 .decryption).toList.map TraceRecord.state =
    [0x24EC, 0x24EC, 0xA343, 0xA343, 0x2B1B, 0xF633, 0x2EEE, 0x2EEE, 0x9DDD, 0xD728, 0xD728] ∧
  ∃ t, execListAt publishedSbox [.lds 0xD728, .ldk 0x4AF5, .trc .encryption, .dec] State.reset = .next t ∧
    t.replies = [⟨false, 0xD728⟩, ⟨false, 0x0000⟩, ⟨false, 0x24EC⟩, ⟨false, 0xD728⟩]

/-- 30_encoding R83: what a successful command answers, uniformly: the new `S` where it writes `S`, 0 for `LDK`, `KEXP` and
`RST`. -/
def Obligations.ResponseDataIsUniform : Prop :=
  ∀ (i : Instr) (s t : State) (v : Word), exec i s = .next t → t.replies = s.replies ++ [⟨false, v⟩] →
    (Column.S ∈ i.writes → v = t.S) ∧ (i = .kexp ∨ i = .rst ∨ (∃ k, i = .ldk k) → v = 0x0000)
end

