-- ==== Sys2Proof/Laws/State.lean ====
section
/-! SUPPORT. What each update of the state leaves in each field, true by rfl, so that no proof unfolds a record update. -/

namespace Sys2Proof.Machine

variable (s : State)

@[simp] theorem State.respond_S (v : Word) : (s.respond v).S = s.S := rfl
@[simp] theorem State.respond_K (v : Word) : (s.respond v).K = s.K := rfl
@[simp] theorem State.respond_W (v : Word) : (s.respond v).W = s.W := rfl
@[simp] theorem State.respond_KSV (v : Word) : (s.respond v).KSV = s.KSV := rfl
@[simp] theorem State.respond_TRV (v : Word) : (s.respond v).TRV = s.TRV := rfl
@[simp] theorem State.respond_MODE (v : Word) : (s.respond v).MODE = s.MODE := rfl
@[simp] theorem State.respond_ERR (v : Word) : (s.respond v).ERR = s.ERR := rfl
@[simp] theorem State.respond_ECODE (v : Word) : (s.respond v).ECODE = s.ECODE := rfl
@[simp] theorem State.respond_STAGE (v : Word) : (s.respond v).STAGE = s.STAGE := rfl
@[simp] theorem State.respond_TB (v : Word) : (s.respond v).TB = s.TB := rfl
@[simp] theorem State.respond_pending (v : Word) : (s.respond v).pending = s.pending := rfl
@[simp] theorem State.respond_replies (v : Word) : (s.respond v).replies = s.replies ++ [⟨false, v⟩] := rfl

@[simp] theorem State.raise_S (e : ErrorKind) : (s.raise e).S = s.S := rfl
@[simp] theorem State.raise_K (e : ErrorKind) : (s.raise e).K = s.K := rfl
@[simp] theorem State.raise_W (e : ErrorKind) : (s.raise e).W = s.W := rfl
@[simp] theorem State.raise_KSV (e : ErrorKind) : (s.raise e).KSV = s.KSV := rfl
@[simp] theorem State.raise_TRV (e : ErrorKind) : (s.raise e).TRV = s.TRV := rfl
@[simp] theorem State.raise_MODE (e : ErrorKind) : (s.raise e).MODE = s.MODE := rfl
@[simp] theorem State.raise_ERR (e : ErrorKind) : (s.raise e).ERR = true := rfl
@[simp] theorem State.raise_ECODE (e : ErrorKind) : (s.raise e).ECODE = ecodeAfter e s := rfl
@[simp] theorem State.raise_STAGE (e : ErrorKind) : (s.raise e).STAGE = s.STAGE := rfl
@[simp] theorem State.raise_TB (e : ErrorKind) : (s.raise e).TB = s.TB := rfl
@[simp] theorem State.raise_pending (e : ErrorKind) : (s.raise e).pending = s.pending := rfl
@[simp] theorem State.raise_replies (e : ErrorKind) : (s.raise e).replies = s.replies ++ [⟨true, zext16 e.code⟩] := rfl

@[simp] theorem State.setS_S (v : Word) : (s.setS v).S = v := rfl
@[simp] theorem State.setS_K (v : Word) : (s.setS v).K = s.K := rfl
@[simp] theorem State.setS_W (v : Word) : (s.setS v).W = s.W := rfl
@[simp] theorem State.setS_KSV (v : Word) : (s.setS v).KSV = s.KSV := rfl
@[simp] theorem State.setS_TRV (v : Word) : (s.setS v).TRV = s.TRV := rfl
@[simp] theorem State.setS_MODE (v : Word) : (s.setS v).MODE = s.MODE := rfl
@[simp] theorem State.setS_ERR (v : Word) : (s.setS v).ERR = s.ERR := rfl
@[simp] theorem State.setS_ECODE (v : Word) : (s.setS v).ECODE = s.ECODE := rfl
@[simp] theorem State.setS_STAGE (v : Word) : (s.setS v).STAGE = s.STAGE := rfl
@[simp] theorem State.setS_TB (v : Word) : (s.setS v).TB = s.TB := rfl
@[simp] theorem State.setS_pending (v : Word) : (s.setS v).pending = s.pending := rfl
@[simp] theorem State.setS_replies (v : Word) : (s.setS v).replies = s.replies := rfl

@[simp] theorem State.loadKey_S (v : Word) : (s.loadKey v).S = s.S := rfl
@[simp] theorem State.loadKey_K (v : Word) : (s.loadKey v).K = v := rfl
@[simp] theorem State.loadKey_W (v : Word) : (s.loadKey v).W = s.W := rfl
@[simp] theorem State.loadKey_KSV (v : Word) : (s.loadKey v).KSV = false := rfl
@[simp] theorem State.loadKey_TRV (v : Word) : (s.loadKey v).TRV = s.TRV := rfl
@[simp] theorem State.loadKey_MODE (v : Word) : (s.loadKey v).MODE = s.MODE := rfl
@[simp] theorem State.loadKey_ERR (v : Word) : (s.loadKey v).ERR = s.ERR := rfl
@[simp] theorem State.loadKey_ECODE (v : Word) : (s.loadKey v).ECODE = s.ECODE := rfl
@[simp] theorem State.loadKey_STAGE (v : Word) : (s.loadKey v).STAGE = s.STAGE := rfl
@[simp] theorem State.loadKey_TB (v : Word) : (s.loadKey v).TB = s.TB := rfl
@[simp] theorem State.loadKey_pending (v : Word) : (s.loadKey v).pending = s.pending := rfl
@[simp] theorem State.loadKey_replies (v : Word) : (s.loadKey v).replies = s.replies := rfl

@[simp] theorem State.loadWords_S (w : Vector Byte 6) : (s.loadWords w).S = s.S := rfl
@[simp] theorem State.loadWords_K (w : Vector Byte 6) : (s.loadWords w).K = s.K := rfl
@[simp] theorem State.loadWords_W (w : Vector Byte 6) : (s.loadWords w).W = w := rfl
@[simp] theorem State.loadWords_KSV (w : Vector Byte 6) : (s.loadWords w).KSV = true := rfl
@[simp] theorem State.loadWords_TRV (w : Vector Byte 6) : (s.loadWords w).TRV = s.TRV := rfl
@[simp] theorem State.loadWords_MODE (w : Vector Byte 6) : (s.loadWords w).MODE = s.MODE := rfl
@[simp] theorem State.loadWords_ERR (w : Vector Byte 6) : (s.loadWords w).ERR = s.ERR := rfl
@[simp] theorem State.loadWords_ECODE (w : Vector Byte 6) : (s.loadWords w).ECODE = s.ECODE := rfl
@[simp] theorem State.loadWords_STAGE (w : Vector Byte 6) : (s.loadWords w).STAGE = s.STAGE := rfl
@[simp] theorem State.loadWords_TB (w : Vector Byte 6) : (s.loadWords w).TB = s.TB := rfl
@[simp] theorem State.loadWords_pending (w : Vector Byte 6) : (s.loadWords w).pending = s.pending := rfl
@[simp] theorem State.loadWords_replies (w : Vector Byte 6) : (s.loadWords w).replies = s.replies := rfl

@[simp] theorem State.startTrace_S (m : Mode) : (s.startTrace m).S = s.S := rfl
@[simp] theorem State.startTrace_K (m : Mode) : (s.startTrace m).K = s.K := rfl
@[simp] theorem State.startTrace_W (m : Mode) : (s.startTrace m).W = s.W := rfl
@[simp] theorem State.startTrace_KSV (m : Mode) : (s.startTrace m).KSV = s.KSV := rfl
@[simp] theorem State.startTrace_TRV (m : Mode) : (s.startTrace m).TRV = s.TRV := rfl
@[simp] theorem State.startTrace_MODE (m : Mode) : (s.startTrace m).MODE = m := rfl
@[simp] theorem State.startTrace_ERR (m : Mode) : (s.startTrace m).ERR = s.ERR := rfl
@[simp] theorem State.startTrace_ECODE (m : Mode) : (s.startTrace m).ECODE = s.ECODE := rfl
@[simp] theorem State.startTrace_STAGE (m : Mode) : (s.startTrace m).STAGE = 0 := rfl
@[simp] theorem State.startTrace_TB (m : Mode) : (s.startTrace m).TB = s.TB := rfl
@[simp] theorem State.startTrace_pending (m : Mode) : (s.startTrace m).pending = s.pending := rfl
@[simp] theorem State.startTrace_replies (m : Mode) : (s.startTrace m).replies = s.replies := rfl

@[simp] theorem State.endStage_S (r : TraceRecord) : (s.endStage r).S = s.S := rfl
@[simp] theorem State.endStage_K (r : TraceRecord) : (s.endStage r).K = s.K := rfl
@[simp] theorem State.endStage_W (r : TraceRecord) : (s.endStage r).W = s.W := rfl
@[simp] theorem State.endStage_KSV (r : TraceRecord) : (s.endStage r).KSV = s.KSV := rfl
@[simp] theorem State.endStage_TRV (r : TraceRecord) : (s.endStage r).TRV = s.TRV := rfl
@[simp] theorem State.endStage_MODE (r : TraceRecord) : (s.endStage r).MODE = s.MODE := rfl
@[simp] theorem State.endStage_ERR (r : TraceRecord) : (s.endStage r).ERR = s.ERR := rfl
@[simp] theorem State.endStage_ECODE (r : TraceRecord) : (s.endStage r).ECODE = s.ECODE := rfl
@[simp] theorem State.endStage_STAGE (r : TraceRecord) : (s.endStage r).STAGE = s.STAGE + 1 := rfl
@[simp] theorem State.endStage_TB (r : TraceRecord) : (s.endStage r).TB = s.TB.setIfInBounds s.STAGE.toNat r := rfl
@[simp] theorem State.endStage_pending (r : TraceRecord) : (s.endStage r).pending = s.pending := rfl
@[simp] theorem State.endStage_replies (r : TraceRecord) : (s.endStage r).replies = s.replies := rfl

@[simp] theorem State.validateTrace_S : (s.validateTrace).S = s.S := rfl
@[simp] theorem State.validateTrace_K : (s.validateTrace).K = s.K := rfl
@[simp] theorem State.validateTrace_W : (s.validateTrace).W = s.W := rfl
@[simp] theorem State.validateTrace_KSV : (s.validateTrace).KSV = s.KSV := rfl
@[simp] theorem State.validateTrace_TRV : (s.validateTrace).TRV = true := rfl
@[simp] theorem State.validateTrace_MODE : (s.validateTrace).MODE = s.MODE := rfl
@[simp] theorem State.validateTrace_ERR : (s.validateTrace).ERR = s.ERR := rfl
@[simp] theorem State.validateTrace_ECODE : (s.validateTrace).ECODE = s.ECODE := rfl
@[simp] theorem State.validateTrace_STAGE : (s.validateTrace).STAGE = s.STAGE := rfl
@[simp] theorem State.validateTrace_TB : (s.validateTrace).TB = s.TB := rfl
@[simp] theorem State.validateTrace_pending : (s.validateTrace).pending = s.pending := rfl
@[simp] theorem State.validateTrace_replies : (s.validateTrace).replies = s.replies := rfl

@[simp] theorem State.clear_S : (s.clear).S = State.reset.S := rfl
@[simp] theorem State.clear_K : (s.clear).K = State.reset.K := rfl
@[simp] theorem State.clear_W : (s.clear).W = State.reset.W := rfl
@[simp] theorem State.clear_KSV : (s.clear).KSV = State.reset.KSV := rfl
@[simp] theorem State.clear_TRV : (s.clear).TRV = State.reset.TRV := rfl
@[simp] theorem State.clear_MODE : (s.clear).MODE = State.reset.MODE := rfl
@[simp] theorem State.clear_ERR : (s.clear).ERR = State.reset.ERR := rfl
@[simp] theorem State.clear_ECODE : (s.clear).ECODE = State.reset.ECODE := rfl
@[simp] theorem State.clear_STAGE : (s.clear).STAGE = State.reset.STAGE := rfl
@[simp] theorem State.clear_TB : (s.clear).TB = State.reset.TB := rfl
@[simp] theorem State.clear_pending : (s.clear).pending = s.pending := rfl
@[simp] theorem State.clear_replies : (s.clear).replies = s.replies := rfl

@[simp] theorem State.leave_S (rest : List HostAction) : (s.leave rest).S = s.S := rfl
@[simp] theorem State.leave_K (rest : List HostAction) : (s.leave rest).K = s.K := rfl
@[simp] theorem State.leave_W (rest : List HostAction) : (s.leave rest).W = s.W := rfl
@[simp] theorem State.leave_KSV (rest : List HostAction) : (s.leave rest).KSV = s.KSV := rfl
@[simp] theorem State.leave_TRV (rest : List HostAction) : (s.leave rest).TRV = s.TRV := rfl
@[simp] theorem State.leave_MODE (rest : List HostAction) : (s.leave rest).MODE = s.MODE := rfl
@[simp] theorem State.leave_ERR (rest : List HostAction) : (s.leave rest).ERR = s.ERR := rfl
@[simp] theorem State.leave_ECODE (rest : List HostAction) : (s.leave rest).ECODE = s.ECODE := rfl
@[simp] theorem State.leave_STAGE (rest : List HostAction) : (s.leave rest).STAGE = s.STAGE := rfl
@[simp] theorem State.leave_TB (rest : List HostAction) : (s.leave rest).TB = s.TB := rfl
@[simp] theorem State.leave_pending (rest : List HostAction) : (s.leave rest).pending = rest := rfl
@[simp] theorem State.leave_replies (rest : List HostAction) : (s.leave rest).replies = s.replies := rfl

@[simp] theorem State.replaceS_S (v : Word) : (s.replaceS v).S = v := rfl
@[simp] theorem State.replaceS_K (v : Word) : (s.replaceS v).K = s.K := rfl
@[simp] theorem State.replaceS_W (v : Word) : (s.replaceS v).W = s.W := rfl
@[simp] theorem State.replaceS_KSV (v : Word) : (s.replaceS v).KSV = s.KSV := rfl
@[simp] theorem State.replaceS_TRV (v : Word) : (s.replaceS v).TRV = s.TRV := rfl
@[simp] theorem State.replaceS_MODE (v : Word) : (s.replaceS v).MODE = s.MODE := rfl
@[simp] theorem State.replaceS_ERR (v : Word) : (s.replaceS v).ERR = s.ERR := rfl
@[simp] theorem State.replaceS_ECODE (v : Word) : (s.replaceS v).ECODE = s.ECODE := rfl
@[simp] theorem State.replaceS_STAGE (v : Word) : (s.replaceS v).STAGE = s.STAGE := rfl
@[simp] theorem State.replaceS_TB (v : Word) : (s.replaceS v).TB = s.TB := rfl
@[simp] theorem State.replaceS_pending (v : Word) : (s.replaceS v).pending = s.pending := rfl
@[simp] theorem State.replaceS_replies (v : Word) : (s.replaceS v).replies = s.replies ++ [⟨false, v⟩] := rfl

@[simp] theorem State.reset_S : State.reset.S = 0 := rfl
@[simp] theorem State.reset_K : State.reset.K = 0 := rfl
@[simp] theorem State.reset_W : State.reset.W = Vector.replicate 6 0 := rfl
@[simp] theorem State.reset_KSV : State.reset.KSV = false := rfl
@[simp] theorem State.reset_TRV : State.reset.TRV = false := rfl
@[simp] theorem State.reset_MODE : State.reset.MODE = .encryption := rfl
@[simp] theorem State.reset_ERR : State.reset.ERR = false := rfl
@[simp] theorem State.reset_ECODE : State.reset.ECODE = 0 := rfl
@[simp] theorem State.reset_STAGE : State.reset.STAGE = 0 := rfl
@[simp] theorem State.reset_TB : State.reset.TB = Vector.replicate 11 TraceRecord.zero := rfl
@[simp] theorem State.reset_pending : State.reset.pending = [] := rfl
@[simp] theorem State.reset_replies : State.reset.replies = [] := rfl

end Sys2Proof.Machine
end

