-- ==== Sys2Proof/Laws/Operations.lean ====
section
/-! SUPPORT. For each shared operation, one lemma that says everything it can do. -/

namespace Sys2Proof.Machine

/-- `ECODE` after an error when none has been raised before. -/
@[simp] theorem ecodeAfter_first {s : State} {e : ErrorKind} (h : s.ERR = false) : ecodeAfter e s = e.code := by
  simp [ecodeAfter, h]

/-- `ECODE` after an error when one has been raised before. -/
@[simp] theorem ecodeAfter_later {s : State} {e : ErrorKind} (h : s.ERR = true) : ecodeAfter e s = s.ECODE := by
  simp [ecodeAfter, h]

/-- The guarded command takes the first of its three ways that applies. -/
theorem State.guarded_cases {α : Type} (cell : Option α) (valid : Bool) (e : ErrorKind) (use : α → State) (s : State) :
    (cell = none ∧ s.guarded cell valid e use = s.raise .index) ∨
    (∃ c, cell = some c ∧ valid = false ∧ s.guarded cell valid e use = s.raise e) ∨
    (∃ c, cell = some c ∧ valid = true ∧ s.guarded cell valid e use = use c) := by
  cases cell with
  | none => exact .inl ⟨rfl, rfl⟩
  | some c =>
    cases valid with
    | false => exact .inr (.inl ⟨c, rfl, rfl, by simp [State.guarded]⟩)
    | true => exact .inr (.inr ⟨c, rfl, rfl, by simp [State.guarded]⟩)

@[simp] theorem State.guarded_none {α : Type} (valid : Bool) (e : ErrorKind) (use : α → State) (s : State) :
    s.guarded none valid e use = s.raise .index := rfl

@[simp] theorem State.guarded_invalid {α : Type} (c : α) (e : ErrorKind) (use : α → State) (s : State) :
    s.guarded (some c) false e use = s.raise e := rfl

@[simp] theorem State.guarded_valid {α : Type} (c : α) (e : ErrorKind) (use : α → State) (s : State) :
    s.guarded (some c) true e use = use c := rfl

/-- A word cell exists exactly up to index 5. -/
theorem wsCell_cases (i : BitVec 3) (s : State) :
    (∃ h : i.toNat < 6, wsCell i s = some s.W[i.toNat]) ∨ (6 ≤ i.toNat ∧ wsCell i s = none) := by
  by_cases h : i.toNat < 6
  · exact .inl ⟨h, by simp [wsCell, h]⟩
  · exact .inr ⟨by omega, by simp [wsCell]; omega⟩

/-- A round-key cell exists exactly up to index 2. -/
theorem rksCell_cases (i : BitVec 2) (s : State) :
    (∃ h : i.toNat < 3, rksCell i s = some s.RK[i.toNat]) ∨ (3 ≤ i.toNat ∧ rksCell i s = none) := by
  by_cases h : i.toNat < 3
  · exact .inl ⟨h, by simp [rksCell, h]⟩
  · exact .inr ⟨by omega, by simp [rksCell]; omega⟩

/-- A trace cell exists exactly up to index 10. -/
theorem tbsCell_cases (i : BitVec 4) (s : State) :
    (∃ h : i.toNat < 11, tbsCell i s = some s.TB[i.toNat]) ∨ (11 ≤ i.toNat ∧ tbsCell i s = none) := by
  by_cases h : i.toNat < 11
  · exact .inl ⟨h, by simp [tbsCell, h]⟩
  · exact .inr ⟨by omega, by simp [tbsCell]; omega⟩

/-- A word of a trace cell exists exactly where both indices are inside their spaces. -/
theorem tbsWord_cases (i : BitVec 4) (j : BitVec 3) (s : State) :
    (∃ (h : i.toNat < 11) (h' : j.toNat < 6), tbsWord i j s = some s.TB[i.toNat].words[j.toNat]) ∨
    ((11 ≤ i.toNat ∨ 6 ≤ j.toNat) ∧ tbsWord i j s = none) := by
  rcases tbsCell_cases i s with ⟨h, hc⟩ | ⟨h, hc⟩
  · by_cases h' : j.toNat < 6
    · exact .inl ⟨h, h', by simp [tbsWord, hc, h']⟩
    · exact .inr ⟨.inr (by omega), by simp [tbsWord, hc]; omega⟩
  · exact .inr ⟨.inl h, by simp [tbsWord, hc]⟩

/-- What one step does: nothing is pending, or the reset input, or a command. -/
theorem step_cases (s : State) :
    (s.pending = [] ∧ step s = .next s) ∨
    (∃ rest, s.pending = .reset :: rest ∧ step s = .next (s.leave rest).clear) ∨
    (∃ cmd rest, s.pending = .command cmd :: rest ∧ step s = present cmd (s.leave rest)) := by
  cases h : s.pending with
  | nil => exact .inl ⟨rfl, by simp [step, stepWith, h]⟩
  | cons a rest =>
    cases a with
    | command cmd => exact .inr (.inr ⟨cmd, rest, rfl, by simp [step, stepWith, h, present]⟩)
    | reset => exact .inr (.inl ⟨rest, rfl, by simp [step, stepWith, h]⟩)

/-- What the core does with one command word: it executes the instruction it decodes, or raises `E_ILLEGAL`. -/
theorem present_cases (cmd : Command) (s : State) :
    (∃ i, decode cmd = .ok i ∧ present cmd s = exec i s) ∨
    (∃ e, decode cmd = .error e ∧ present cmd s = .next (s.raise .illegal)) := by
  cases h : decode cmd with
  | ok i => exact .inl ⟨i, rfl, by simp [present, presentWith, h]⟩
  | error e => exact .inr ⟨e, rfl, by simp [present, presentWith, h]⟩

/-- A key-schedule run loads the six words of the schedule of `K`. -/
theorem runKeySchedule_eq (σ : SBox) (s : State) : s.runKeySchedule σ = s.loadWords (expandKey σ s.K).words := rfl

/-- One stage of the sequencer at a stage that has a row. -/
theorem seqStep_of_row {σ : SBox} {s : State} {e : StageEntry} (h : (seqr s.MODE)[s.STAGE.toNat]? = some e) :
    s.seqStep σ = e.finish (e.uop.effect σ s) := by
  simp [State.seqStep, h]

/-- One more stage. -/
theorem seqRun_succ (σ : SBox) (n : Nat) (s : State) : s.seqRun σ (n + 1) = (s.seqStep σ).seqRun σ n := rfl

/-- What the effect of a micro-operation leaves as it was: everything but `S`, `W` and `KSV`. -/
@[simp] theorem MicroOp.effect_K (σ : SBox) (u : MicroOp) (s : State) : (u.effect σ s).K = s.K := by
  cases u <;> rfl
@[simp] theorem MicroOp.effect_TRV (σ : SBox) (u : MicroOp) (s : State) : (u.effect σ s).TRV = s.TRV := by
  cases u <;> rfl
@[simp] theorem MicroOp.effect_MODE (σ : SBox) (u : MicroOp) (s : State) : (u.effect σ s).MODE = s.MODE := by
  cases u <;> rfl
@[simp] theorem MicroOp.effect_ERR (σ : SBox) (u : MicroOp) (s : State) : (u.effect σ s).ERR = s.ERR := by
  cases u <;> rfl
@[simp] theorem MicroOp.effect_ECODE (σ : SBox) (u : MicroOp) (s : State) : (u.effect σ s).ECODE = s.ECODE := by
  cases u <;> rfl
@[simp] theorem MicroOp.effect_STAGE (σ : SBox) (u : MicroOp) (s : State) : (u.effect σ s).STAGE = s.STAGE := by
  cases u <;> rfl
@[simp] theorem MicroOp.effect_TB (σ : SBox) (u : MicroOp) (s : State) : (u.effect σ s).TB = s.TB := by
  cases u <;> rfl
@[simp] theorem MicroOp.effect_pending (σ : SBox) (u : MicroOp) (s : State) : (u.effect σ s).pending = s.pending := by
  cases u <;> rfl
@[simp] theorem MicroOp.effect_replies (σ : SBox) (u : MicroOp) (s : State) : (u.effect σ s).replies = s.replies := by
  cases u <;> rfl

/-- What the end of a stage leaves as it was: everything but `TB` and `STAGE`. -/
@[simp] theorem StageEntry.finish_S (e : StageEntry) (s : State) : (e.finish s).S = s.S := rfl
@[simp] theorem StageEntry.finish_K (e : StageEntry) (s : State) : (e.finish s).K = s.K := rfl
@[simp] theorem StageEntry.finish_W (e : StageEntry) (s : State) : (e.finish s).W = s.W := rfl
@[simp] theorem StageEntry.finish_KSV (e : StageEntry) (s : State) : (e.finish s).KSV = s.KSV := rfl
@[simp] theorem StageEntry.finish_TRV (e : StageEntry) (s : State) : (e.finish s).TRV = s.TRV := rfl
@[simp] theorem StageEntry.finish_MODE (e : StageEntry) (s : State) : (e.finish s).MODE = s.MODE := rfl
@[simp] theorem StageEntry.finish_ERR (e : StageEntry) (s : State) : (e.finish s).ERR = s.ERR := rfl
@[simp] theorem StageEntry.finish_ECODE (e : StageEntry) (s : State) : (e.finish s).ECODE = s.ECODE := rfl
@[simp] theorem StageEntry.finish_pending (e : StageEntry) (s : State) : (e.finish s).pending = s.pending := rfl
@[simp] theorem StageEntry.finish_replies (e : StageEntry) (s : State) : (e.finish s).replies = s.replies := rfl
@[simp] theorem StageEntry.finish_TB (e : StageEntry) (s : State) :
    (e.finish s).TB = s.TB.setIfInBounds s.STAGE.toNat (e.record s) := rfl
@[simp] theorem StageEntry.finish_STAGE (e : StageEntry) (s : State) : (e.finish s).STAGE = s.STAGE + 1 := rfl

/-- What a stage leaves as it was. -/
@[simp] theorem State.seqStep_K (σ : SBox) (s : State) : (s.seqStep σ).K = s.K := by
  unfold State.seqStep
  split <;> simp
@[simp] theorem State.seqStep_TRV (σ : SBox) (s : State) : (s.seqStep σ).TRV = s.TRV := by
  unfold State.seqStep
  split <;> simp
@[simp] theorem State.seqStep_MODE (σ : SBox) (s : State) : (s.seqStep σ).MODE = s.MODE := by
  unfold State.seqStep
  split <;> simp
@[simp] theorem State.seqStep_ERR (σ : SBox) (s : State) : (s.seqStep σ).ERR = s.ERR := by
  unfold State.seqStep
  split <;> simp
@[simp] theorem State.seqStep_ECODE (σ : SBox) (s : State) : (s.seqStep σ).ECODE = s.ECODE := by
  unfold State.seqStep
  split <;> simp
@[simp] theorem State.seqStep_pending (σ : SBox) (s : State) : (s.seqStep σ).pending = s.pending := by
  unfold State.seqStep
  split <;> simp
@[simp] theorem State.seqStep_replies (σ : SBox) (s : State) : (s.seqStep σ).replies = s.replies := by
  unfold State.seqStep
  split <;> simp

/-- What any number of stages leaves as it was. -/
@[simp] theorem State.seqRun_K (σ : SBox) (n : Nat) (s : State) : (State.seqRun σ n s).K = s.K := by
  induction n generalizing s with
  | zero => rfl
  | succ n ih => rw [seqRun_succ, ih, State.seqStep_K]
@[simp] theorem State.seqRun_TRV (σ : SBox) (n : Nat) (s : State) : (State.seqRun σ n s).TRV = s.TRV := by
  induction n generalizing s with
  | zero => rfl
  | succ n ih => rw [seqRun_succ, ih, State.seqStep_TRV]
@[simp] theorem State.seqRun_MODE (σ : SBox) (n : Nat) (s : State) : (State.seqRun σ n s).MODE = s.MODE := by
  induction n generalizing s with
  | zero => rfl
  | succ n ih => rw [seqRun_succ, ih, State.seqStep_MODE]
@[simp] theorem State.seqRun_ERR (σ : SBox) (n : Nat) (s : State) : (State.seqRun σ n s).ERR = s.ERR := by
  induction n generalizing s with
  | zero => rfl
  | succ n ih => rw [seqRun_succ, ih, State.seqStep_ERR]
@[simp] theorem State.seqRun_ECODE (σ : SBox) (n : Nat) (s : State) : (State.seqRun σ n s).ECODE = s.ECODE := by
  induction n generalizing s with
  | zero => rfl
  | succ n ih => rw [seqRun_succ, ih, State.seqStep_ECODE]
@[simp] theorem State.seqRun_pending (σ : SBox) (n : Nat) (s : State) : (State.seqRun σ n s).pending = s.pending := by
  induction n generalizing s with
  | zero => rfl
  | succ n ih => rw [seqRun_succ, ih, State.seqStep_pending]
@[simp] theorem State.seqRun_replies (σ : SBox) (n : Nat) (s : State) : (State.seqRun σ n s).replies = s.replies := by
  induction n generalizing s with
  | zero => rfl
  | succ n ih => rw [seqRun_succ, ih, State.seqStep_replies]

/-- The nibbles of a value, one by one. -/
@[simp] theorem toNibbles_zero (v : Word) : (toNibbles v)[0] = v.extractLsb' 12 4 := rfl
@[simp] theorem toNibbles_one (v : Word) : (toNibbles v)[1] = v.extractLsb' 8 4 := rfl
@[simp] theorem toNibbles_two (v : Word) : (toNibbles v)[2] = v.extractLsb' 4 4 := rfl
@[simp] theorem toNibbles_three (v : Word) : (toNibbles v)[3] = v.extractLsb' 0 4 := rfl

end Sys2Proof.Machine
end

