-- ==== Sys2Proof/Laws/Bits.lean ====
section
/-! SUPPORT. The fields of a command word and the nibbles of a 16-bit value, as they come apart and go together. The widths of
`++` are sums, so these lemmas name the two sides of each append once and for all. -/

namespace Sys2Proof

/-- The opcode of an assembled word. -/
@[simp] theorem opField_commandWord (op : Byte) (imm : Word) : opField (commandWord op imm) = op :=
  BitVec.extractLsb'_append_eq_left (a := op) (b := imm)

/-- The immediate of an assembled word. -/
@[simp] theorem immField_commandWord (op : Byte) (imm : Word) : immField (commandWord op imm) = imm :=
  BitVec.extractLsb'_append_eq_right (a := op) (b := imm)

/-- A word is its opcode and its immediate. -/
theorem commandWord_fields (w : Command) : commandWord (opField w) (immField w) = w := by
  refine BitVec.eq_of_getLsbD_eq fun i hi => ?_
  refine (BitVec.getLsbD_append (x := opField w) (y := immField w)).trans ?_
  simp only [opField, immField, BitVec.getLsbD_extractLsb']
  by_cases h : i < 16
  · simp [h]
  · simp [h, show 16 + (i - 16) = i by omega, show i - 16 < 8 by omega]

/-- Decoding of an assembled word with a legal opcode. -/
theorem decode_commandWord {op : Byte} {imm : Word} {i : Instr} (h : instrOf op imm = some i) :
    decode (commandWord op imm) = .ok i := by
  simp [decode, h]

/-- Decoding of an assembled word with an illegal opcode. -/
theorem decode_commandWord_illegal {op : Byte} {imm : Word} (h : instrOf op imm = none) :
    decode (commandWord op imm) = .error (.illegalOpcode op) := by
  simp [decode, h]

namespace Machine

/-- Bit `j` of four joined nibbles. -/
theorem getLsbD_nibbles (a b c d : Nibble) (j : Nat) : (a ++ b ++ c ++ d : Word).getLsbD j =
    if j < 4 then d.getLsbD j else if j < 8 then c.getLsbD (j - 4) else if j < 12 then b.getLsbD (j - 8)
      else a.getLsbD (j - 12) := by
  refine (BitVec.getLsbD_append (x := a ++ b ++ c) (y := d)).trans ?_
  rw [BitVec.getLsbD_append (x := a ++ b) (y := c), BitVec.getLsbD_append]
  by_cases h1 : j < 4
  · simp [h1]
  · by_cases h2 : j < 8
    · simp [h1, h2, show j - 4 < 4 by omega]
    · by_cases h3 : j < 12
      · simp [h1, h2, h3, show ¬j - 4 < 4 by omega, show j - 4 - 4 = j - 8 by omega, show j - 8 < 4 by omega]
      · simp [h1, h2, h3, show ¬j - 4 < 4 by omega, show ¬j - 4 - 4 < 4 by omega,
          show j - 4 - 4 - 4 = j - 12 by omega]

/-- Nibble 0 of four joined nibbles. -/
@[simp] theorem nibble0_append (a b c d : Nibble) : (a ++ b ++ c ++ d : Word).extractLsb' 12 4 = a := by
  refine BitVec.eq_of_getLsbD_eq fun i hi => ?_
  rw [BitVec.getLsbD_extractLsb', getLsbD_nibbles]
  interval_cases i <;> rfl

/-- Nibble 1 of four joined nibbles. -/
@[simp] theorem nibble1_append (a b c d : Nibble) : (a ++ b ++ c ++ d : Word).extractLsb' 8 4 = b := by
  refine BitVec.eq_of_getLsbD_eq fun i hi => ?_
  rw [BitVec.getLsbD_extractLsb', getLsbD_nibbles]
  interval_cases i <;> rfl

/-- Nibble 2 of four joined nibbles. -/
@[simp] theorem nibble2_append (a b c d : Nibble) : (a ++ b ++ c ++ d : Word).extractLsb' 4 4 = c := by
  refine BitVec.eq_of_getLsbD_eq fun i hi => ?_
  rw [BitVec.getLsbD_extractLsb', getLsbD_nibbles]
  interval_cases i <;> rfl

/-- Nibble 3 of four joined nibbles. -/
@[simp] theorem nibble3_append (a b c d : Nibble) : (a ++ b ++ c ++ d : Word).extractLsb' 0 4 = d := by
  refine BitVec.eq_of_getLsbD_eq fun i hi => ?_
  rw [BitVec.getLsbD_extractLsb', getLsbD_nibbles]
  interval_cases i <;> rfl

/-- A 16-bit value is its four nibbles. -/
theorem nibbles_join (v : Word) :
    (v.extractLsb' 12 4 ++ v.extractLsb' 8 4 ++ v.extractLsb' 4 4 ++ v.extractLsb' 0 4 : Word) = v := by
  refine BitVec.eq_of_getLsbD_eq fun i hi => ?_
  rw [getLsbD_nibbles]
  simp only [BitVec.getLsbD_extractLsb']
  interval_cases i <;> simp

/-- Every 16-bit value is four joined nibbles. -/
theorem exists_nibbles (v : Word) : ∃ a b c d : Nibble, v = a ++ b ++ c ++ d :=
  ⟨_, _, _, _, (nibbles_join v).symm⟩

/-- The two nibbles of a byte, high one first. -/
@[simp] theorem highNibble_append (h l : Nibble) : (h ++ l : Byte).extractLsb' 4 4 = h :=
  BitVec.extractLsb'_append_eq_left (a := h) (b := l)

@[simp] theorem lowNibble_append (h l : Nibble) : (h ++ l : Byte).extractLsb' 0 4 = l :=
  BitVec.extractLsb'_append_eq_right (a := h) (b := l)

/-- The two bytes of a 16-bit value, high one first. -/
@[simp] theorem highByte_append (h l : Byte) : highByte (h ++ l) = h :=
  BitVec.extractLsb'_append_eq_left (a := h) (b := l)

@[simp] theorem lowByte_append (h l : Byte) : lowByte (h ++ l) = l :=
  BitVec.extractLsb'_append_eq_right (a := h) (b := l)

end Machine

end Sys2Proof
end

