-- ==== Sys2Proof/Laws/Parametric.lean ====
section
/-! SUPPORT. The machine is the parametric machine at the parameter `Config.sbox` (00_scope R8). -/

namespace Sys2Proof.Machine

theorem execAt_configSbox (i : Instr) (s : State) : execAt Config.sbox i s = exec i s := by
  cases i <;> rfl

theorem stepAt_configSbox (s : State) : stepAt Config.sbox s = step s := by
  have h : execAt Config.sbox = exec := by
    funext i t
    exact execAt_configSbox i t
  rw [stepAt, step, h]

end Sys2Proof.Machine
end

