-- ==== Sys2Proof/Laws/PerInstr.lean ====
section
/-! SUPPORT. Two properties of every instruction as syntax, one lemma per constructor: the assembler accepts the line that
writes it, and that line names it (30_encoding R84). -/

namespace Sys2Proof.Laws.AssemblerAccepts

/-- The assembler accepts the line that writes the instruction. -/
def Statement (i : Instr) : Prop := i.wellFormed = true

/-- A line of numbers that fit is well-formed. -/
theorem of_numbers {m : Mnemonic} {ns : List Nat} (hc : ns.length = m.operandWidths.length)
    (hf : ∀ p ∈ ns.zip m.operandWidths, p.1 < 2 ^ p.2) : (AsmLine.mk m (ns.map .num)).wellFormed = true := by
  have h1 : (AsmLine.mk m (ns.map .num)).countOk = true := by simp [AsmLine.countOk, hc]
  have h2 : (AsmLine.mk m (ns.map .num)).fits = true := by
    simp only [AsmLine.fits, List.zip_map_left, List.all_map, List.all_eq_true]
    intro p hp
    exact decide_eq_true (hf p hp)
  have h3 : (AsmLine.mk m (ns.map .num)).modeNamesOk = true := by
    simp [AsmLine.modeNamesOk, List.all_map, Function.comp_def]
  simp [AsmLine.wellFormed, h1, h2, h3]

theorem rdst : Statement .rdst := rfl

theorem rst : Statement .rst := rfl

theorem gfm (a : Nibble) (b : Nibble) : Statement (.gfm a b) :=
  of_numbers (m := .gfm) (ns := [a.toNat, b.toNat]) rfl (by simp [Mnemonic.operandWidths]; omega)

theorem sbx (n : Nibble) : Statement (.sbx n) :=
  of_numbers (m := .sbx) (ns := [n.toNat]) rfl (by simp [Mnemonic.operandWidths]; omega)

theorem isbx (n : Nibble) : Statement (.isbx n) :=
  of_numbers (m := .isbx) (ns := [n.toNat]) rfl (by simp [Mnemonic.operandWidths]; omega)

theorem sbb (b : Byte) : Statement (.sbb b) :=
  of_numbers (m := .sbb) (ns := [b.toNat]) rfl (by simp [Mnemonic.operandWidths]; omega)

theorem isbb (b : Byte) : Statement (.isbb b) :=
  of_numbers (m := .isbb) (ns := [b.toNat]) rfl (by simp [Mnemonic.operandWidths]; omega)

theorem lds (v : Word) : Statement (.lds v) :=
  of_numbers (m := .lds) (ns := [v.toNat]) rfl (by simp [Mnemonic.operandWidths]; omega)

theorem rds : Statement .rds := rfl

theorem rdn (i : BitVec 2) : Statement (.rdn i) :=
  of_numbers (m := .rdn) (ns := [i.toNat]) rfl (by simp [Mnemonic.operandWidths]; omega)

theorem wrn (i : BitVec 2) (v : Nibble) : Statement (.wrn i v) :=
  of_numbers (m := .wrn) (ns := [i.toNat, v.toNat]) rfl (by simp [Mnemonic.operandWidths]; omega)

theorem rdm (r : BitVec 1) (c : BitVec 1) : Statement (.rdm r c) :=
  of_numbers (m := .rdm) (ns := [r.toNat, c.toNat]) rfl (by simp [Mnemonic.operandWidths]; omega)

theorem wrm (r : BitVec 1) (c : BitVec 1) (v : Nibble) : Statement (.wrm r c v) :=
  of_numbers (m := .wrm) (ns := [r.toNat, c.toNat, v.toNat]) rfl (by simp [Mnemonic.operandWidths]; omega)

theorem rtn (b : Byte) : Statement (.rtn b) :=
  of_numbers (m := .rtn) (ns := [b.toNat]) rfl (by simp [Mnemonic.operandWidths]; omega)

theorem ldk (v : Word) : Statement (.ldk v) :=
  of_numbers (m := .ldk) (ns := [v.toNat]) rfl (by simp [Mnemonic.operandWidths]; omega)

theorem rdk : Statement .rdk := rfl

theorem kexp : Statement .kexp := rfl

theorem rdw (i : BitVec 3) : Statement (.rdw i) :=
  of_numbers (m := .rdw) (ns := [i.toNat]) rfl (by simp [Mnemonic.operandWidths]; omega)

theorem rdrk (i : BitVec 2) : Statement (.rdrk i) :=
  of_numbers (m := .rdrk) (ns := [i.toNat]) rfl (by simp [Mnemonic.operandWidths]; omega)

theorem ark (i : BitVec 2) : Statement (.ark i) :=
  of_numbers (m := .ark) (ns := [i.toNat]) rfl (by simp [Mnemonic.operandWidths]; omega)

theorem arki (v : Word) : Statement (.arki v) :=
  of_numbers (m := .arki) (ns := [v.toNat]) rfl (by simp [Mnemonic.operandWidths]; omega)

theorem subn : Statement .subn := rfl

theorem isubn : Statement .isubn := rfl

theorem mixc : Statement .mixc := rfl

theorem imixc : Statement .imixc := rfl

theorem shrw : Statement .shrw := rfl

theorem enc : Statement .enc := rfl

theorem dec : Statement .dec := rfl

theorem trc (m : Mode) : Statement (.trc m) := by
  cases m <;> rfl

theorem rdti (i : BitVec 4) : Statement (.rdti i) :=
  of_numbers (m := .rdti) (ns := [i.toNat]) rfl (by simp [Mnemonic.operandWidths]; omega)

theorem rdts (i : BitVec 4) : Statement (.rdts i) :=
  of_numbers (m := .rdts) (ns := [i.toNat]) rfl (by simp [Mnemonic.operandWidths]; omega)

theorem rdtk (i : BitVec 4) : Statement (.rdtk i) :=
  of_numbers (m := .rdtk) (ns := [i.toNat]) rfl (by simp [Mnemonic.operandWidths]; omega)

theorem rdtw (i : BitVec 4) (j : BitVec 3) : Statement (.rdtw i j) :=
  of_numbers (m := .rdtw) (ns := [i.toNat, j.toNat]) rfl (by simp [Mnemonic.operandWidths]; omega)

end Sys2Proof.Laws.AssemblerAccepts

namespace Sys2Proof.Laws.LineNames

/-- The line that writes the instruction names it. -/
def Statement (i : Instr) : Prop := i.line.toInstr = some i

/-- A line the assembler accepts names what its mnemonic and operand values name. -/
theorem of_values {l : AsmLine} {i : Instr} (h : l.wellFormed = true)
    (hv : instrOfLine l.mnemonic (l.operands.map AsmOperand.value) = some i) : l.toInstr = some i := by
  simp [AsmLine.toInstr, h, hv]

theorem rdst : Statement .rdst := rfl

theorem rst : Statement .rst := rfl

theorem gfm (a : Nibble) (b : Nibble) : Statement (.gfm a b) :=
  of_values (AssemblerAccepts.gfm a b) (by simp [Instr.line, instrOfLine, AsmOperand.value])

theorem sbx (n : Nibble) : Statement (.sbx n) :=
  of_values (AssemblerAccepts.sbx n) (by simp [Instr.line, instrOfLine, AsmOperand.value])

theorem isbx (n : Nibble) : Statement (.isbx n) :=
  of_values (AssemblerAccepts.isbx n) (by simp [Instr.line, instrOfLine, AsmOperand.value])

theorem sbb (b : Byte) : Statement (.sbb b) :=
  of_values (AssemblerAccepts.sbb b) (by simp [Instr.line, instrOfLine, AsmOperand.value])

theorem isbb (b : Byte) : Statement (.isbb b) :=
  of_values (AssemblerAccepts.isbb b) (by simp [Instr.line, instrOfLine, AsmOperand.value])

theorem lds (v : Word) : Statement (.lds v) :=
  of_values (AssemblerAccepts.lds v) (by simp [Instr.line, instrOfLine, AsmOperand.value])

theorem rds : Statement .rds := rfl

theorem rdn (i : BitVec 2) : Statement (.rdn i) :=
  of_values (AssemblerAccepts.rdn i) (by simp [Instr.line, instrOfLine, AsmOperand.value])

theorem wrn (i : BitVec 2) (v : Nibble) : Statement (.wrn i v) :=
  of_values (AssemblerAccepts.wrn i v) (by simp [Instr.line, instrOfLine, AsmOperand.value])

theorem rdm (r : BitVec 1) (c : BitVec 1) : Statement (.rdm r c) :=
  of_values (AssemblerAccepts.rdm r c) (by simp [Instr.line, instrOfLine, AsmOperand.value])

theorem wrm (r : BitVec 1) (c : BitVec 1) (v : Nibble) : Statement (.wrm r c v) :=
  of_values (AssemblerAccepts.wrm r c v) (by simp [Instr.line, instrOfLine, AsmOperand.value])

theorem rtn (b : Byte) : Statement (.rtn b) :=
  of_values (AssemblerAccepts.rtn b) (by simp [Instr.line, instrOfLine, AsmOperand.value])

theorem ldk (v : Word) : Statement (.ldk v) :=
  of_values (AssemblerAccepts.ldk v) (by simp [Instr.line, instrOfLine, AsmOperand.value])

theorem rdk : Statement .rdk := rfl

theorem kexp : Statement .kexp := rfl

theorem rdw (i : BitVec 3) : Statement (.rdw i) :=
  of_values (AssemblerAccepts.rdw i) (by simp [Instr.line, instrOfLine, AsmOperand.value])

theorem rdrk (i : BitVec 2) : Statement (.rdrk i) :=
  of_values (AssemblerAccepts.rdrk i) (by simp [Instr.line, instrOfLine, AsmOperand.value])

theorem ark (i : BitVec 2) : Statement (.ark i) :=
  of_values (AssemblerAccepts.ark i) (by simp [Instr.line, instrOfLine, AsmOperand.value])

theorem arki (v : Word) : Statement (.arki v) :=
  of_values (AssemblerAccepts.arki v) (by simp [Instr.line, instrOfLine, AsmOperand.value])

theorem subn : Statement .subn := rfl

theorem isubn : Statement .isubn := rfl

theorem mixc : Statement .mixc := rfl

theorem imixc : Statement .imixc := rfl

theorem shrw : Statement .shrw := rfl

theorem enc : Statement .enc := rfl

theorem dec : Statement .dec := rfl

theorem trc (m : Mode) : Statement (.trc m) := by
  cases m <;> rfl

theorem rdti (i : BitVec 4) : Statement (.rdti i) :=
  of_values (AssemblerAccepts.rdti i) (by simp [Instr.line, instrOfLine, AsmOperand.value])

theorem rdts (i : BitVec 4) : Statement (.rdts i) :=
  of_values (AssemblerAccepts.rdts i) (by simp [Instr.line, instrOfLine, AsmOperand.value])

theorem rdtk (i : BitVec 4) : Statement (.rdtk i) :=
  of_values (AssemblerAccepts.rdtk i) (by simp [Instr.line, instrOfLine, AsmOperand.value])

theorem rdtw (i : BitVec 4) (j : BitVec 3) : Statement (.rdtw i j) :=
  of_values (AssemblerAccepts.rdtw i j) (by simp [Instr.line, instrOfLine, AsmOperand.value])

end Sys2Proof.Laws.LineNames
end

