-- ==== Sys2Proof/Tests/Slice0.lean ====
section
/-! SUPPORT. Tests on fixed values, each expected result from spec/ (the rule or vector is named), and for every statement with
hypotheses a state and operands that meet them. -/

namespace Sys2Proof.Tests

open Sys2Proof Sys2Proof.Machine

/-! ## Well-formedness: each check refuses an ill-formed line (30_encoding R84) -/

/-- Too few operands. -/
theorem test_countOk_refuses : (AsmLine.mk .gfm [.num 4]).countOk = false ∧ assemble ⟨.gfm, [.num 4]⟩ = none := by
  decide

/-- Numbers that do not fit a nibble, a 2-bit index, a 16-bit value. -/
theorem test_fits_refuses : (AsmLine.mk .sbx [.num 16]).fits = false ∧ assemble ⟨.sbx, [.num 16]⟩ = none ∧
    assemble ⟨.ark, [.num 4]⟩ = none ∧ assemble ⟨.lds, [.num 0x10000]⟩ = none := by
  decide

/-- A mode name where no mode is taken. -/
theorem test_modeNamesOk_refuses : (AsmLine.mk .sbx [.modeName .decryption]).modeNamesOk = false ∧
    assemble ⟨.sbx, [.modeName .decryption]⟩ = none := by
  decide

/-- Lines that only an index check of the core stops are well-formed (60_exceptions R214). -/
theorem test_wellFormed_accepts : (AsmLine.mk .trc [.modeName .decryption]).wellFormed = true ∧
    (AsmLine.mk .rdw [.num 7]).wellFormed = true ∧ (AsmLine.mk .rdtw [.num 15, .num 7]).wellFormed = true := by
  decide

/-! ## Decoding: a word written out for every command (30_encoding R71, R73, R84; 95_test_vectors) -/

theorem test_decode_system : decode 0x010000 = .ok .rdst ∧ decode 0x020000 = .ok .rst ∧ decode 0x01FFFF = .ok .rdst := by
  decide

/-- V11, V13. -/
theorem test_decode_gf : decode 0x10004E = .ok (.gfm 4 0xE) ∧ decode 0x10FF4E = .ok (.gfm 4 0xE) ∧
    decode 0x1000B1 = .ok (.gfm 0xB 1) := by
  decide

/-- V17, V18, V19. -/
theorem test_decode_sbox : decode 0x200005 = .ok (.sbx 5) ∧ decode 0x20FFF5 = .ok (.sbx 5) ∧
    decode 0x21000E = .ok (.isbx 0xE) ∧ decode 0x22005F = .ok (.sbb 0x5F) ∧ decode 0x2300C0 = .ok (.isbb 0xC0) := by
  decide

/-- V22, V23, V24. -/
theorem test_decode_codec : decode 0x30D728 = .ok (.lds 0xD728) ∧ decode 0x310000 = .ok .rds ∧
    decode 0x32FFFE = .ok (.rdn 2) ∧ decode 0x33003F = .ok (.wrn 3 0xF) ∧ decode 0x33000F = .ok (.wrn 0 0xF) ∧
    decode 0x340002 = .ok (.rdm 1 0) ∧ decode 0x340001 = .ok (.rdm 0 1) ∧ decode 0x350015 = .ok (.wrm 0 1 5) ∧
    decode 0x350020 = .ok (.wrm 1 0 0) ∧ decode 0x3600F5 = .ok (.rtn 0xF5) := by
  decide

/-- V28. -/
theorem test_decode_key : decode 0x404AF5 = .ok (.ldk 0x4AF5) ∧ decode 0x410000 = .ok .rdk ∧
    decode 0x420000 = .ok .kexp ∧ decode 0x430006 = .ok (.rdw 6) ∧ decode 0x43000D = .ok (.rdw 5) ∧
    decode 0x440003 = .ok (.rdrk 3) := by
  decide

/-- P1, P2, V34. -/
theorem test_decode_engine : decode 0x500002 = .ok (.ark 2) ∧ decode 0x514AF5 = .ok (.arki 0x4AF5) ∧
    decode 0x520000 = .ok .subn ∧ decode 0x530000 = .ok .isubn ∧ decode 0x540000 = .ok .mixc ∧
    decode 0x550000 = .ok .imixc ∧ decode 0x560000 = .ok .shrw ∧ decode 0x580000 = .ok .enc ∧
    decode 0x590000 = .ok .dec := by
  decide

/-- P3, V50. -/
theorem test_decode_trace : decode 0x600000 = .ok (.trc .encryption) ∧ decode 0x600001 = .ok (.trc .decryption) ∧
    decode 0x60FFFE = .ok (.trc .encryption) ∧ decode 0x610002 = .ok (.rdti 2) ∧ decode 0x62000B = .ok (.rdts 11) ∧
    decode 0x630005 = .ok (.rdtk 5) ∧ decode 0x640021 = .ok (.rdtw 1 2) ∧ decode 0x64007B = .ok (.rdtw 11 7) := by
  decide

/-- 30_encoding R75: the gaps of the opcode map. -/
theorem test_decode_illegal : decode 0x000000 = .error (.illegalOpcode 0x00) ∧
    decode 0xFFFFFF = .error (.illegalOpcode 0xFF) ∧ decode 0x570000 = .error (.illegalOpcode 0x57) ∧
    decode 0x650000 = .error (.illegalOpcode 0x65) := by
  decide

/-- 30_encoding R84: canonical encodings. -/
theorem test_encode : encode (.gfm 4 0xE) = 0x10004E ∧ encode (.wrm 1 1 0xF) = 0x35003F ∧
    encode (.rdtw 1 2) = 0x640021 ∧ encode (.trc .decryption) = 0x600001 ∧ encode .rdst = 0x010000 := by
  decide

/-- The numbering of spec/opcode_table.json: bit 0 of the row is bit 0 of the command. -/
theorem test_tableWord : decodeTableWord 24 0x30D728 = some (.lds 0xD728) ∧ decodeTableWord 24 0 = none := by
  decide

/-! ## One step -/

/-- The last response of an outcome, as `(err, data)`. -/
def answer (o : Host.Outcome State Fault Refusal) : Option (Bool × Word) :=
  match o with
  | .next t => t.replies.getLast?.map fun r => (r.err, r.data)
  | _ => none

/-- The state register after an outcome. -/
def stateAfter (o : Host.Outcome State Fault Refusal) : Option Word :=
  match o with
  | .next t => some t.S
  | _ => none

/-- The reset state with another `S`. -/
def holding (v : Word) : State := State.reset.setS v

/-- The state after `LDS v; LDK k; KEXP` at the default S-Box. -/
def keyed (v k : Word) : State := ((holding v).loadKey k).runKeySchedule publishedSbox

/-- The state after `LDS v; LDK k; TRC m` at the default S-Box. -/
def traced (v k : Word) (m : Mode) : State := trcAt publishedSbox m ((holding v).loadKey k)

/-- 47_system R205, V50 row 6: `E_ILLEGAL` first. -/
theorem test_rdst : answer (exec .rdst State.reset) = some (false, 0x0000) ∧
    answer (exec .rdst (State.reset.raise .illegal)) = some (false, 0x0108) := by
  decide

/-- 47_system R206. -/
theorem test_rst : exec .rst (holding 0xD728) = .next (State.reset.respond 0) := rfl

/-- 40_gf_arith R94, rows 4 and F. -/
theorem test_gfMultiply_rows :
    (List.range 16).map (fun b => (gfMultiply 0x4 (BitVec.ofNat 4 b)).toNat) =
      [0x0, 0x4, 0x8, 0xC, 0x3, 0x7, 0xB, 0xF, 0x6, 0x2, 0xE, 0xA, 0x5, 0x1, 0xD, 0x9] ∧
    (List.range 16).map (fun b => (gfMultiply 0xF (BitVec.ofNat 4 b)).toNat) =
      [0x0, 0xF, 0xD, 0x2, 0x9, 0x6, 0x4, 0xB, 0x1, 0xE, 0xC, 0x3, 0x8, 0x7, 0x5, 0xA] := by
  decide

/-- V12: the loop of `gfMultiply(4, 0xE)` after two iterations and at the end. -/
theorem test_gfIterate : gfIterate 2 ⟨0, 4, 0xE⟩ = ⟨8, 3, 3⟩ ∧ gfIterate 4 ⟨0, 4, 0xE⟩ = ⟨0xD, 0xC, 0⟩ := by
  decide

/-- V11. -/
theorem test_gfm : answer (exec (.gfm 7 0xB) (holding 0xD728)) = some (false, 0x0004) := by
  decide

/-- V17. -/
theorem test_sbx_isbx : answer (execAt publishedSbox (.sbx 0xE) State.reset) = some (false, 0x000F) ∧
    answer (execAt publishedSbox (.isbx 0xE) State.reset) = some (false, 0x000D) := by
  decide

/-- V18. -/
theorem test_sbb_isbb : answer (execAt publishedSbox (.sbb 0x6A) State.reset) = some (false, 0x0080) ∧
    answer (execAt publishedSbox (.isbb 0x6A) State.reset) = some (false, 0x0082) := by
  decide

/-- V22 rows 1 and 14, V31. -/
theorem test_lds_rds : stateAfter (exec (.lds 0xD728) State.reset) = some 0xD728 ∧
    answer (exec .rds (holding 0x005F)) = some (false, 0x005F) := by
  decide

/-- V22 rows 3 and 10. -/
theorem test_rdn_wrn : answer (exec (.rdn 1) (holding 0xD728)) = some (false, 0x0007) ∧
    answer (exec (.wrn 3 0xF) (holding 0xD728)) = some (false, 0xD72F) := by
  decide

/-- V22 rows 7, 8 and 13. -/
theorem test_rdm_wrm : answer (exec (.rdm 1 0) (holding 0xD728)) = some (false, 0x0007) ∧
    answer (exec (.rdm 0 1) (holding 0xD728)) = some (false, 0x0002) ∧
    stateAfter (exec (.wrm 0 1 5) (holding 0x002F)) = some 0x005F := by
  decide

/-- V21: the matrix is column-major. -/
theorem test_toMatrix : toMatrix 0xD728 = #v[#v[0xD, 0x2], #v[0x7, 0x8]] ∧ toNibbles 0x1234 = #v[1, 2, 3, 4] := by
  decide

/-- V23. -/
theorem test_rtn : answer (exec (.rtn 0xF5) State.reset) = some (false, 0x005F) := by
  decide

/-- V28 rows 2, 3 and 18. -/
theorem test_ldk_rdk : answer (exec (.ldk 0x4AF5) (keyed 0 0x4AF5)) = some (false, 0x0000) ∧
    answer (exec .rdk (keyed 0 0x4AF5)) = some (false, 0x4AF5) := by
  decide

/-- V26, keys 0x0000 and 0xA73B. -/
theorem test_expandKey : (expandKey publishedSbox 0x0000).words = #v[0x00, 0x00, 0x19, 0x19, 0x0D, 0x14] ∧
    (expandKey publishedSbox 0xA73B).roundKeys = #v[0xA73B, 0x1C27, 0x7651] := by
  decide

/-- V28 row 5. -/
theorem test_kexp : answer (execAt publishedSbox .kexp (holding 7)) = some (false, 0x0000) := by
  decide

/-- V28 rows 11 to 13, and 1. -/
theorem test_rdw : answer (exec (.rdw 5) (keyed 0 0x4AF5)) = some (false, 0x00AF) ∧
    answer (exec (.rdw 6) (keyed 0 0x4AF5)) = some (true, 0x0002) ∧
    answer (exec (.rdw 0) State.reset) = some (true, 0x0003) := by
  decide

/-- V28 rows 16, 17 and 19. -/
theorem test_rdrk : answer (exec (.rdrk 2) (keyed 0 0x4AF5)) = some (false, 0x87AF) ∧
    answer (exec (.rdrk 3) (keyed 0 0x4AF5)) = some (true, 0x0002) ∧
    answer (exec (.rdrk 0) State.reset) = some (true, 0x0003) := by
  decide

/-- V31. -/
theorem test_ark_arki : answer (exec (.ark 1) (keyed 0x4AF5 0x4AF5)) = some (false, 0x97DD) ∧
    stateAfter (exec (.ark 3) (keyed 0x4AF5 0x4AF5)) = some 0x4AF5 ∧
    answer (exec (.arki 0xFFFF) (holding 0xD728)) = some (false, 0x28D7) := by
  decide

/-- V30, row 0x1234. -/
theorem test_subn_isubn : answer (execAt publishedSbox .subn (holding 0x1234)) = some (false, 0x4ABD) ∧
    answer (execAt publishedSbox .isubn (holding 0x1234)) = some (false, 0x59B1) := by
  decide

/-- V30, row 0x1234. -/
theorem test_mixc_imixc : answer (exec .mixc (holding 0x1234)) = some (false, 0x9608) ∧
    answer (exec .imixc (holding 0x1234)) = some (false, 0xD304) := by
  decide

/-- V30, row 0x1234. -/
theorem test_shrw : stateAfter (exec .shrw (holding 0x1234)) = some 0x1432 := by
  decide

/-- V33, rows 3 and 9. -/
theorem test_enc_dec : answer (execAt publishedSbox .enc ((holding 0x6F6B).loadKey 0xA73B)) = some (false, 0x0738) ∧
    answer (execAt publishedSbox .dec ((holding 0x0738).loadKey 0xA73B)) = some (false, 0x6F6B) := by
  decide

/-- V40, V41. -/
theorem test_trc : answer (execAt publishedSbox (.trc .encryption) ((holding 0xD728).loadKey 0x4AF5)) =
      some (false, 0x24EC) ∧
    (traced 0x24EC 0x4AF5 .decryption).STATUS = 0x00B7 := by
  decide

/-- V40 rows 1 and 9, V50. -/
theorem test_rdti : answer (exec (.rdti 1) (traced 0xD728 0x4AF5 .encryption)) = some (false, 0x0201) ∧
    answer (exec (.rdti 9) (traced 0xD728 0x4AF5 .encryption)) = some (false, 0x0109) ∧
    answer (exec (.rdti 11) State.reset) = some (true, 0x0002) := by
  decide

/-- V40 rows 5 and 10, V50 row 11. -/
theorem test_rdts : answer (exec (.rdts 5) (traced 0xD728 0x4AF5 .encryption)) = some (false, 0xF633) ∧
    answer (exec (.rdts 10) State.reset) = some (true, 0x0004) := by
  decide

/-- V41 rows 2 and 3. -/
theorem test_rdtk : answer (exec (.rdtk 2) (traced 0x24EC 0x4AF5 .decryption)) = some (false, 0x87AF) ∧
    answer (exec (.rdtk 3) (traced 0x24EC 0x4AF5 .decryption)) = some (false, 0x0000) := by
  decide

/-- P3 rows 10 and V50 row 9. -/
theorem test_rdtw : answer (exec (.rdtw 1 2) (traced 0xD728 0x4AF5 .encryption)) = some (false, 0x00DD) ∧
    answer (exec (.rdtw 0 6) (traced 0xD728 0x4AF5 .encryption)) = some (true, 0x0002) := by
  decide

/-- 60_exceptions R218: an error is answered and recorded, and only the first is recorded. -/
theorem test_raise : (State.reset.raise .noKey).STATUS = 0x0308 ∧
    ((State.reset.raise .noKey).raise .illegal).STATUS = 0x0308 := by
  decide

/-- A table word, placed, is the next command; with nothing pending the core idles. -/
theorem test_step : step (State.reset.withFetchWord 24 0x30D728) = exec (.lds 0xD728) State.reset ∧
    step State.reset = .next State.reset :=
  ⟨rfl, rfl⟩

/-! ## Witnesses: for each statement with hypotheses, values that meet them -/

/-- A state with a valid key schedule, for every S-Box: `KEXP` from reset. -/
def keyedState : State := kexpAt Config.sbox State.reset

/-- A state with a valid trace and a valid key schedule, for every S-Box: what `TRC ENC` leaves from reset. -/
def tracedState : State :=
  { State.reset with
    W := (expandKey Config.sbox 0).words, KSV := true, TRV := true, STAGE := 11,
    TB := generateTrace Config.sbox 0 0 .encryption }

theorem keyedState_coherent : Coherent keyedState :=
  { wordFile := fun _ => rfl
    traceBuffer := fun h => by cases h
    stage := rfl
    errorFlags := by decide
    errorCode := by decide
    mode := fun _ => rfl }

theorem tracedState_coherent : Coherent tracedState :=
  { wordFile := fun _ => rfl
    traceBuffer := fun _ => rfl
    stage := rfl
    errorFlags := by decide
    errorCode := by decide
    mode := fun h => by cases h }

/-- AssemblyRoundTrip. -/
theorem witness_AssemblyRoundTrip : assemble ⟨.wrm, [.num 1, .num 1, .num 15]⟩ = some 0x35003F ∧
    assemble ⟨.trc, [.modeName .decryption]⟩ = some 0x600001 ∧ decode 0x35FFFF = .ok (.wrm 1 1 0xF) := by
  decide

/-- IgnoredBitsChangeNothing. -/
theorem witness_IgnoredBitsChangeNothing : decode 0x10FF24 = .ok (.gfm 2 4) ∧
    (0x10FF24 : Command) &&& ~~~ignoredBits (.gfm 2 4) = 0x100024 &&& ~~~ignoredBits (.gfm 2 4) := by
  decide

/-- IllegalOpcodesRaise: the ends of the map and of a gap in it. -/
theorem witness_IllegalOpcodesRaise :
    ((0x01FFFF : Command).extractLsb' 16 8).toNat ∈ legalOpcodes ∧
    ((0x64FFFF : Command).extractLsb' 16 8).toNat ∈ legalOpcodes ∧
    ((0x57FFFF : Command).extractLsb' 16 8).toNat ∉ legalOpcodes ∧
    ((0x650000 : Command).extractLsb' 16 8).toNat ∉ legalOpcodes := by
  decide

/-- PseudoInstructionsMakeTheirCalls: the first and the last record. -/
theorem witness_PseudoInstructionsMakeTheirCalls :
    (0 : BitVec 4).toNat < 11 ∧ (10 : BitVec 4).toNat < 11 ∧ tracedState.TRV = true :=
  ⟨by decide, by decide, rfl⟩

/-- StepRunsDecodedInstruction: a legal word, and one that does not decode. -/
theorem witness_StepRunsDecodedInstruction : ((State.reset.leave [.command 0x30D728, .reset]).pending =
      [.command 0x30D728, .reset] ∧ decode 0x30D728 = .ok (.lds 0xD728)) ∧
    (State.reset.leave [.command 0x57ABCD]).pending = [.command 0x57ABCD] ∧
    ∀ i : Instr, decode 0x57ABCD ≠ .ok i := by
  refine ⟨by decide, by decide, fun i h => ?_⟩
  rw [show decode 0x57ABCD = .error (.illegalOpcode 0x57) by decide] at h
  cases h

/-- TableWordIsFetched. -/
theorem witness_TableWordIsFetched : 0x640021 < 2 ^ 24 ∧ decodeTableWord 24 0x640021 = some (.rdtw 1 2) := by
  decide

/-- ResetInputAndIdleHost. -/
theorem witness_ResetInputAndIdleHost :
    (State.reset.leave [.reset, .command 0x010000]).pending = [.reset, .command 0x010000] ∧ State.reset.pending = [] := by
  decide

/-- The hypothesis of `DecodesAs`, for the opcode of every statement that uses it, on words with every ignored bit 1. -/
theorem witness_DecodesAs : ∀ op ∈ [0x01, 0x02, 0x10, 0x20, 0x21, 0x22, 0x23, 0x30, 0x31, 0x32, 0x33, 0x34, 0x35, 0x36,
      0x40, 0x41, 0x42, 0x43, 0x44, 0x50, 0x51, 0x52, 0x53, 0x54, 0x55, 0x56, 0x58, 0x59, 0x60, 0x61, 0x62, 0x63, 0x64],
    (commandWord op 0xFFFF).extractLsb' 16 8 = op := by
  decide

/-- RdstReportsStatus, its clause on coherent states: without and with a trace and an error. -/
theorem witness_RdstReportsStatus :
    (Coherent keyedState ∧ exec .rdst keyedState = .next (keyedState.respond 0x0001) ∧
      (keyedState.respond 0x0001).replies = keyedState.replies ++ [⟨false, 0x0001⟩]) ∧
    Coherent tracedState ∧ exec .rdst tracedState = .next (tracedState.respond 0x00B3) ∧
      (tracedState.respond 0x00B3).replies = tracedState.replies ++ [⟨false, 0x00B3⟩] :=
  ⟨⟨keyedState_coherent, rfl, rfl⟩, tracedState_coherent, rfl, rfl⟩

/-- RstRestoresResetState: twice in a row, and another command after an error, on a valid trace. -/
theorem witness_RstRestoresResetState : exec .rst tracedState = .next (State.reset.respond 0) ∧
    exec .rst (State.reset.respond 0) = .next ((State.reset.respond 0).respond 0) ∧
    exec .kexp (tracedState.raise .index) = .next (kexpAt Config.sbox (tracedState.raise .index)) ∧
    (tracedState.raise .index).ERR = true ∧ (tracedState.raise .index).TRV = true :=
  ⟨rfl, rfl, rfl, rfl, rfl⟩

/-- ResetValues, the ends of the index ranges. -/
theorem witness_ResetValues : (5 : BitVec 3).toNat ≤ 5 ∧ (0 : BitVec 3).toNat ≤ 5 ∧ (2 : BitVec 2).toNat ≤ 2 ∧
    (10 : BitVec 4).toNat ≤ 10 := by
  decide

/-- KeyIsLoadedAndRead: a command that is neither `LDK` nor `RST`. -/
theorem witness_KeyIsLoadedAndRead : (∀ v, Instr.kexp ≠ .ldk v) ∧ Instr.kexp ≠ .rst ∧
    exec .kexp State.reset = .next (kexpAt Config.sbox State.reset) :=
  ⟨fun _ h => (nomatch h), by decide, rfl⟩

/-- GfMultiplyIsFieldMultiplication: a product that is 0, an element that is not 0, a product that is 1. -/
theorem witness_GfMultiplyIsFieldMultiplication :
    gfMultiply 0xF 0 = 0 ∧ (0xF : Nibble) ≠ 0 ∧ gfMultiply 0xF 0x8 = 1 := by
  decide

/-- NibbleIsReadAndWritten: two nibbles, the first and the last. -/
theorem witness_NibbleIsReadAndWritten : (3 : BitVec 2) ≠ 0 := by decide

/-- RtnSwapsNibbles: a byte with equal nibbles, and one without. -/
theorem witness_RtnSwapsNibbles : rotateNibblesInByte 0x77 = 0x77 ∧
    (0x77 : Byte).extractLsb' 4 4 = (0x77 : Byte).extractLsb' 0 4 ∧ rotateNibblesInByte 0x78 ≠ 0x78 := by
  decide

/-- KexpRunsKeySchedule: two runs. -/
theorem witness_KexpRunsKeySchedule : exec .kexp State.reset = .next keyedState ∧
    exec .kexp keyedState = .next (kexpAt Config.sbox keyedState) :=
  ⟨rfl, rfl⟩

/-- RdwReadsWord: each clause at its boundary. -/
theorem witness_RdwReadsWord : ((5 : BitVec 3).toNat < 6 ∧ keyedState.KSV = true) ∧ 5 < (6 : BitVec 3).toNat ∧
    (5 : BitVec 3).toNat ≤ 5 ∧ State.reset.KSV = false :=
  ⟨⟨by decide, rfl⟩, by decide, by decide, rfl⟩

/-- RdrkReadsRoundKey: each clause at its boundary. -/
theorem witness_RdrkReadsRoundKey : ((2 : BitVec 2).toNat < 3 ∧ keyedState.KSV = true) ∧ 2 < (3 : BitVec 2).toNat ∧
    ((2 : BitVec 2).toNat ≤ 2 ∧ State.reset.KSV = false) ∧ Coherent keyedState ∧ keyedState.KSV = true :=
  ⟨⟨by decide, rfl⟩, by decide, ⟨by decide, rfl⟩, keyedState_coherent, rfl⟩

/-- ArkAddsRoundKey: each clause at its boundary. -/
theorem witness_ArkAddsRoundKey : ((2 : BitVec 2).toNat < 3 ∧ keyedState.KSV = true) ∧ 2 < (3 : BitVec 2).toNat ∧
    ((2 : BitVec 2).toNat ≤ 2 ∧ State.reset.KSV = false) ∧ Coherent keyedState ∧ keyedState.KSV = true :=
  ⟨⟨by decide, rfl⟩, by decide, ⟨by decide, rfl⟩, keyedState_coherent, rfl⟩

/-- SubnSubstitutesEachNibble and MixcMultipliesColumns: a state as four nibbles. -/
theorem witness_FourNibbles : (holding 0x1234).S = (1 : Nibble) ++ (2 : Nibble) ++ (3 : Nibble) ++ (4 : Nibble) := by
  decide

/-- ShrwSwapsSecondRow: a fixed point and a value that is none. -/
theorem witness_ShrwSwapsSecondRow : shiftRow 0x2EEE = 0x2EEE ∧
    (0x2EEE : Word).extractLsb' 8 4 = (0x2EEE : Word).extractLsb' 0 4 ∧ shiftRow 0x1234 ≠ 0x1234 := by
  decide

/-- EngineIsLinear: its three functions. -/
theorem witness_EngineIsLinear : invMixColumns ∈ [shiftRow, mixColumns, invMixColumns] := by
  simp

/-- TraceShape: a record without a round key, one without words, for every S-Box. -/
theorem witness_TraceShape : (generateTrace Config.sbox 0 0 .encryption)[10].has_rk = false ∧
    (generateTrace Config.sbox 0 0 .decryption)[2].has_words = false :=
  ⟨rfl, rfl⟩

/-- RdtiReadsIdentifier: each clause at its boundary. -/
theorem witness_RdtiReadsIdentifier : ((10 : BitVec 4).toNat < 11 ∧ tracedState.TRV = true) ∧ 10 < (11 : BitVec 4).toNat ∧
    (10 : BitVec 4).toNat ≤ 10 ∧ State.reset.TRV = false :=
  ⟨⟨by decide, rfl⟩, by decide, by decide, rfl⟩

/-- RdtsAndRdtkReadRecord: each clause at its boundary, and a record without a round key in a coherent state. -/
theorem witness_RdtsAndRdtkReadRecord :
    ((10 : BitVec 4).toNat < 11 ∧ tracedState.TRV = true) ∧ 10 < (11 : BitVec 4).toNat ∧
    ((10 : BitVec 4).toNat ≤ 10 ∧ State.reset.TRV = false) ∧
    Coherent tracedState ∧ tracedState.TRV = true ∧ tracedState.TB[10].has_rk = false :=
  ⟨⟨by decide, rfl⟩, by decide, ⟨by decide, rfl⟩, tracedState_coherent, rfl, rfl⟩

/-- RdtwReadsTracedWord: each clause at the boundary of each index; `tracedState` is the witness of those on record 1. -/
theorem witness_RdtwReadsTracedWord :
    ((10 : BitVec 4).toNat < 11 ∧ (5 : BitVec 3).toNat < 6 ∧ tracedState.TRV = true) ∧
    (10 < (11 : BitVec 4).toNat ∧ 5 < (6 : BitVec 3).toNat) ∧
    ((10 : BitVec 4).toNat ≤ 10 ∧ (5 : BitVec 3).toNat ≤ 5 ∧ State.reset.TRV = false) ∧
    (2 : BitVec 4).toNat ≠ 1 ∧ (0 : BitVec 4).toNat ≠ 1 ∧ Coherent tracedState ∧ tracedState.TRV = true :=
  ⟨⟨by decide, by decide, rfl⟩, by decide, ⟨by decide, by decide, rfl⟩, by decide, by decide, tracedState_coherent, rfl⟩

/-- TraceBufferIsStable: a new key, its schedule, a read of the trace, and an illegal word. -/
theorem witness_TraceBufferIsStable : ∀ c ∈ ([0x401234, 0x420000, 0x640021, 0xFFFFFF] : List Command),
    decode c ≠ .ok .rst ∧ ∀ m, decode c ≠ .ok (.trc m) := by
  intro c hc
  simp only [List.mem_cons, List.not_mem_nil, or_false] at hc
  rcases hc with rfl | rfl | rfl | rfl <;> exact ⟨by decide, fun m => by cases m <;> decide⟩

/-- ErrorEntry, ErrorPriority, ErrorFlagsAreSticky, FailingCommandsCanBeRemoved: each error, on the reset state, and a command
that raises none. -/
theorem witness_ErrorEntry : errorOf 0x570000 State.reset = some .illegal ∧ errorOf 0x430006 State.reset = some .index ∧
    errorOf 0x430005 State.reset = some .noKey ∧ errorOf 0x62000A State.reset = some .noTrace ∧
    errorOf 0x310000 State.reset = none := by
  decide

/-- ErrorFlagsAreSticky: an error after an error, a command without one, and `RST`. -/
theorem witness_ErrorFlagsAreSticky :
    (present 0x570000 (State.reset.raise .noKey) = .next ((State.reset.raise .noKey).raise .illegal) ∧
      errorOf 0x570000 (State.reset.raise .noKey) = some .illegal) ∧
    (present 0x310000 (State.reset.raise .noKey) = .next ((State.reset.raise .noKey).respond 0) ∧
      errorOf 0x310000 (State.reset.raise .noKey) = none ∧ decode 0x310000 ≠ .ok .rst) ∧
    present 0x020000 (State.reset.raise .noKey) = .next ((State.reset.raise .noKey).clear.respond 0) ∧
      decode 0x020000 = .ok .rst :=
  ⟨⟨rfl, by decide⟩, ⟨rfl, by decide, by decide⟩, rfl, by decide⟩

/-- OneResponsePerCommand: a response with an error and one without. -/
theorem witness_OneResponsePerCommand :
    (∃ t r, present 0x430006 State.reset = .next t ∧ t.replies = State.reset.replies ++ [r] ∧ r.err = true) ∧
    ∃ t r, present 0x310000 State.reset = .next t ∧ t.replies = State.reset.replies ++ [r] ∧ r.err = false :=
  ⟨⟨_, ⟨true, 0x0002⟩, rfl, rfl, rfl⟩, _, ⟨false, 0x0000⟩, rfl, rfl, rfl⟩

/-- WriteMatrix: an outcome for each of its clauses. -/
theorem witness_WriteMatrix : (exec .rds State.reset = .next (State.reset.respond 0) ∧ Column.S ∉ Instr.writes .rds) ∧
    (∃ t, exec (.ldk 7) keyedState = .next t) ∧ (∃ t, exec .enc State.reset = .next t) ∧
    (∃ t, exec (.trc .decryption) State.reset = .next t) ∧ (∃ t, exec .rst tracedState = .next t) ∧
    exec (.rdw 6) State.reset = .next (State.reset.raise .index) :=
  ⟨⟨rfl, by decide⟩, ⟨_, rfl⟩, ⟨_, rfl⟩, ⟨_, rfl⟩, ⟨_, rfl⟩, rfl⟩

/-- ReadsHaveNoSideEffect: a read, and each of the writes twice. -/
theorem witness_ReadsHaveNoSideEffect :
    (Instr.onlyReads .rds = true ∧ exec .rds (holding 5) = .next ((holding 5).respond 5) ∧
      ((holding 5).respond 5).replies = (holding 5).replies ++ [⟨false, 5⟩]) ∧
    ∀ i ∈ [Instr.lds 5, .wrn 3 5, .wrm 1 1 5, .ldk 5], ∃ t u, exec i State.reset = .next t ∧ exec i t = .next u := by
  refine ⟨⟨by decide, rfl, rfl⟩, fun i hi => ?_⟩
  simp only [List.mem_cons, List.not_mem_nil, or_false] at hi
  rcases hi with rfl | rfl | rfl | rfl <;> exact ⟨_, _, rfl, rfl⟩

/-- StepKeepsCoherence: a coherent state with a command to run. -/
theorem witness_StepKeepsCoherence : Coherent (State.reset.presenting 0x420000) ∧
    step (State.reset.presenting 0x420000) = .next keyedState :=
  ⟨{ wordFile := fun h => by cases h
     traceBuffer := fun h => by cases h
     stage := rfl
     errorFlags := by decide
     errorCode := by decide
     mode := fun _ => rfl }, rfl⟩

/-- ReachableStatesAreCoherent: a reachable state with a valid key schedule. -/
theorem witness_ReachableStatesAreCoherent : Reachable keyedState ∧ keyedState.KSV = true :=
  ⟨⟨[.command 0x420000], .tail (.refl _) rfl⟩, rfl⟩

/-- HiddenContentsAreUnobservable: two different states. -/
theorem witness_HiddenContentsAreUnobservable :
    Indistinguishable State.reset { State.reset with W := #v[1, 2, 3, 4, 5, 6] } ∧
    State.reset.W ≠ #v[1, 2, 3, 4, 5, 6] :=
  ⟨{ S := rfl, K := rfl, KSV := rfl, TRV := rfl, MODE := rfl, ERR := rfl, ECODE := rfl, STAGE := rfl,
     W := fun h => (by cases h), TB := fun _ => rfl }, by decide⟩

/-- ResponseDataIsUniform: a command that writes `S`, and each that answers 0. -/
theorem witness_ResponseDataIsUniform : (exec (.lds 5) State.reset = .next ((holding 5).respond 5) ∧
      ((holding 5).respond 5).replies = State.reset.replies ++ [⟨false, 5⟩] ∧ Column.S ∈ Instr.writes (.lds 5)) ∧
    ∀ i ∈ [Instr.kexp, .rst, .ldk 5], ∃ t, exec i State.reset = .next t ∧
      t.replies = State.reset.replies ++ [⟨false, 0x0000⟩] := by
  refine ⟨⟨rfl, rfl, by decide⟩, fun i hi => ?_⟩
  simp only [List.mem_cons, List.not_mem_nil, or_false] at hi
  rcases hi with rfl | rfl | rfl <;> exact ⟨_, rfl, rfl⟩

end Sys2Proof.Tests
end

