-- ==== Sys2Proof/Proofs/Scope.lean ====
section
/-! PROOF. How the host's next command word reaches the core: the step presents it, and presenting it runs the instruction it
decodes to or enters the error `E_ILLEGAL` (00_scope R15, 30_encoding R75, R77). -/

namespace Sys2Proof.Machine

/-- The model's error entry is the one 60_exceptions R218 spells, for every kind of error. -/
theorem State.raise_eq_afterError (e : ErrorKind) (s : State) : s.raise e = afterError e.code s := rfl

/-- A step whose next host action is a command word presents that word on the state that is left (00_scope R15). -/
theorem step_of_pending_command {s : State} {w : Command} {rest : List HostAction} (h : s.pending = .command w :: rest) :
    step s = present w (s.leave rest) := by
  rcases step_cases s with ⟨hidle, -⟩ | ⟨r, hreset, -⟩ | ⟨w', r, hcommand, hstep⟩
  · simp [h] at hidle
  · simp [h] at hreset
  · obtain ⟨rfl, rfl⟩ : w = w' ∧ rest = r := by simpa [h] using hcommand
    exact hstep

/-- A legal word runs its instruction (30_encoding R77). -/
theorem present_of_decode_ok {w : Command} {i : Instr} (h : decode w = .ok i) (s : State) : present w s = exec i s := by
  rcases present_cases w s with ⟨j, hj, hrun⟩ | ⟨e, he, -⟩
  · obtain rfl : i = j := by simpa [h] using hj
    exact hrun
  · simp [h] at he

/-- A word that decodes to no instruction raises `E_ILLEGAL`, whose code is 1 (30_encoding R75). -/
theorem present_of_decode_ne_ok {w : Command} (h : ∀ i : Instr, decode w ≠ .ok i) (s : State) :
    present w s = .next (afterError 1 s) := by
  rcases present_cases w s with ⟨i, hi, -⟩ | ⟨-, -, hraise⟩
  · exact absurd hi (h i)
  · exact hraise.trans (congrArg _ (s.raise_eq_afterError .illegal))

/-- Settles O7: the step presents the word, and the word either decodes or does not. -/
theorem stepRunsDecodedInstruction : Obligations.StepRunsDecodedInstruction := by
  intro s w rest hpending
  have hpresent : step s = present w (s.leave rest) := step_of_pending_command hpending
  refine ⟨fun i hi => ?legal, fun hi => ?illegal, hpresent⟩
  case legal => exact hpresent.trans (present_of_decode_ok hi _)
  case illegal => exact hpresent.trans (present_of_decode_ne_ok hi _)

end Sys2Proof.Machine
end

section
/-! PROOF. The state of the core: what the trace sequencer leaves in it, what each command can do to it (the write matrix,
10_state R36, and the error flags, R28), and the invariants that hold from reset on (R34, R35). -/

namespace Sys2Proof.Machine

/-! ## The trace sequencer

A run from stage 0 takes the rows of the stage table in order (46_trace R189), so each field of its last state unrolls row by
row: `seqRun_succ_eq_finish` is one row, and the effect of each micro-operation is an equation. -/

/-- A run of no stages. -/
@[simp] theorem seqRun_zero (σ : SBox) (s : State) : s.seqRun σ 0 = s := rfl

/-- One more stage at the end of a run. -/
theorem seqRun_succ_last (σ : SBox) (n : Nat) (s : State) : s.seqRun σ (n + 1) = (s.seqRun σ n).seqStep σ := by
  induction n generalizing s with
  | zero => rfl
  | succ n ih => rw [seqRun_succ, ih, ← seqRun_succ]

/-- The stage that runs is the row of the table at the counter's value (46_trace R189). -/
theorem seqStep_of_STAGE {σ : SBox} {s : State} {n : Nat} (hn : n < 11) (hstage : s.STAGE = BitVec.ofNat 4 n) :
    s.seqStep σ = (seqr s.MODE)[n].finish ((seqr s.MODE)[n].uop.effect σ s) := by
  have hnat : s.STAGE.toNat = n := by rw [hstage, BitVec.toNat_ofNat, Nat.mod_eq_of_lt (by omega)]
  exact seqStep_of_row (by rw [hnat, Vector.getElem?_eq_getElem hn])

/-- A record reads `S` and `W` only, which the end of a stage leaves as they were. -/
@[simp] theorem StageEntry.record_finish (e f : StageEntry) (s : State) : e.record (f.finish s) = e.record s := rfl

/-! The effect of each micro-operation (46_trace R188). -/

section Effect
variable (σ : SBox) (s : State)

@[simp] theorem MicroOp.effect_uInput : MicroOp.uInput.effect σ s = s := rfl
@[simp] theorem MicroOp.effect_uOutput : MicroOp.uOutput.effect σ s = s := rfl
@[simp] theorem MicroOp.effect_uKexp : MicroOp.uKexp.effect σ s = s.loadWords (expandKey σ s.K).words := rfl
@[simp] theorem MicroOp.effect_uArk (k : Fin 3) : (MicroOp.uArk k).effect σ s = s.setS (addRoundKey s.S s.RK[k]) := rfl
@[simp] theorem MicroOp.effect_uSub : MicroOp.uSub.effect σ s = s.setS (substituteNibbles σ s.S false) := rfl
@[simp] theorem MicroOp.effect_uIsub : MicroOp.uIsub.effect σ s = s.setS (substituteNibbles σ s.S true) := rfl
@[simp] theorem MicroOp.effect_uShr : MicroOp.uShr.effect σ s = s.setS (shiftRow s.S) := rfl
@[simp] theorem MicroOp.effect_uMix : MicroOp.uMix.effect σ s = s.setS (mixColumns s.S) := rfl
@[simp] theorem MicroOp.effect_uImix : MicroOp.uImix.effect σ s = s.setS (invMixColumns s.S) := rfl

end Effect

/-! The round keys are a view of the word file (10_state R23). -/

@[simp] theorem State.setS_RK (v : Word) (s : State) : (s.setS v).RK = s.RK := rfl
@[simp] theorem StageEntry.finish_RK (e : StageEntry) (s : State) : (e.finish s).RK = s.RK := rfl
@[simp] theorem State.loadWords_schedule_RK (σ : SBox) (k : Word) (s : State) :
    (s.loadWords (expandKey σ k).words).RK = (expandKey σ k).roundKeys := rfl

section Run
variable {σ : SBox} {s : State} (hstart : s.STAGE = 0)
include hstart

/-- From stage 0 the counter counts the stages (46_trace R189). -/
theorem seqRun_STAGE {n : Nat} (hn : n ≤ 11) : (s.seqRun σ n).STAGE = BitVec.ofNat 4 n := by
  induction n with
  | zero => exact hstart
  | succ n ih =>
    rw [seqRun_succ_last, seqStep_of_STAGE hn (ih (by omega)), StageEntry.finish_STAGE, MicroOp.effect_STAGE,
      ih (by omega), BitVec.ofNat_add]
    rfl

/-- The run from stage 0 goes through the rows of the stage table in order (46_trace R189). -/
theorem seqRun_succ_eq_finish {n : Nat} (hn : n < 11) :
    s.seqRun σ (n + 1) = (seqr s.MODE)[n].finish ((seqr s.MODE)[n].uop.effect σ (s.seqRun σ n)) := by
  have hstep := seqStep_of_STAGE (σ := σ) hn (seqRun_STAGE (σ := σ) hstart (by omega))
  rwa [State.seqRun_MODE, ← seqRun_succ_last] at hstep

/-- The record of a stage is made from the state the stage leaves, and no later stage of the run touches it. -/
theorem seqRun_TB_getElem {n k : Nat} (hnk : n < k) (hk : k ≤ 11) :
    (s.seqRun σ k).TB[n] = (seqr s.MODE)[n].record (s.seqRun σ (n + 1)) := by
  induction k with
  | zero => omega
  | succ k ih =>
    have hcount : (s.seqRun σ k).STAGE.toNat = k := by
      rw [seqRun_STAGE hstart (by omega), BitVec.toNat_ofNat, Nat.mod_eq_of_lt (by omega)]
    rcases Nat.lt_succ_iff_lt_or_eq.mp hnk with hlt | rfl
    · simp [seqRun_succ_eq_finish (n := k) hstart hk, hcount, ← ih hlt (by omega), hlt.ne']
    · simp [seqRun_succ_eq_finish hstart hk, hcount]

/-- The eleven records of a run from stage 0 are the trace spelled out (46_trace R191). -/
theorem seqRun_TB : (s.seqRun σ 11).TB = generateTrace σ s.S s.K s.MODE := by
  ext1 n hn
  rw [seqRun_TB_getElem hstart hn le_rfl]
  cases hm : s.MODE <;> interval_cases n <;>
    simp [seqRun_succ_eq_finish hstart, hm, seqr, generateTrace, StageEntry.record]

/-- A run from stage 0 leaves the result of the mode's pipeline in `S` (46_trace R190). -/
theorem seqRun_S : (s.seqRun σ 11).S = pipelineOf σ s.MODE s.S s.K := by
  cases hm : s.MODE <;> simp [seqRun_succ_eq_finish hstart, hm, seqr, pipelineOf, encrypt, decrypt]

/-- A run from stage 0 leaves the schedule of `K` in the word file (46_trace R190). -/
theorem seqRun_wordFile : (s.seqRun σ 11).W = (expandKey σ s.K).words ∧ (s.seqRun σ 11).KSV = true := by
  cases hm : s.MODE <;> simp [seqRun_succ_eq_finish hstart, hm, seqr]

end Run

/-- The exact next state of `TRC` (46_trace R190). -/
theorem trcAt_eq (σ : SBox) (m : Mode) (s : State) :
    trcAt σ m s =
      { s with
        S := pipelineOf σ m s.S s.K, W := (expandKey σ s.K).words, KSV := true, TRV := true, MODE := m, STAGE := 11,
        TB := generateTrace σ s.S s.K m, replies := s.replies ++ [⟨false, pipelineOf σ m s.S s.K⟩] } := by
  have hstart : (s.startTrace m).STAGE = 0 := rfl
  obtain ⟨hW, hKSV⟩ := seqRun_wordFile (σ := σ) hstart
  simp [trcAt, State.respond, State.validateTrace, seqRun_S hstart, seqRun_TB hstart, hW, hKSV, seqRun_STAGE hstart]

/-! ## What a command can do -/

/-- The first of the two checks of a legal command that fails (60_exceptions R217). -/
def failedCheck (i : Instr) (s : State) : Option ErrorKind :=
  if !i.indexLegal then some .index
  else if i.needsKey && !s.KSV then some .noKey
  else if i.needsTrace && !s.TRV then some .noTrace
  else none

/-- The error of a legal word is that of its command's checks (60_exceptions R217). -/
theorem errorOf_of_decode_ok {cmd : Command} {i : Instr} (h : decode cmd = .ok i) (s : State) :
    errorOf cmd s = failedCheck i s := by
  simp [errorOf, h, failedCheck]

/-- The error of a word with an illegal opcode (60_exceptions R213). -/
theorem errorOf_of_decode_error {cmd : Command} {e : DecodeError} (h : decode cmd = .error e) (s : State) :
    errorOf cmd s = some .illegal := by
  simp [errorOf, h]

/-- No command checks both flags (60_exceptions R217). -/
theorem needsTrace_of_needsKey {i : Instr} (h : i.needsKey = true) : i.needsTrace = false := by
  cases i with
  | rdw | rdrk | ark => rfl
  | _ => cases h

/-- The checks of a command that reads the word file. -/
theorem failedCheck_needsKey {i : Instr} {s : State} (h : i.needsKey = true) :
    failedCheck i s = if i.indexLegal then if s.KSV then none else some .noKey else some .index := by
  cases hi : i.indexLegal <;> cases hv : s.KSV <;> simp [failedCheck, h, needsTrace_of_needsKey h, hi, hv]

/-- The checks of a command that reads the trace buffer. -/
theorem failedCheck_needsTrace {i : Instr} {s : State} (h : i.needsTrace = true) :
    failedCheck i s = if i.indexLegal then if s.TRV then none else some .noTrace else some .index := by
  have hk : i.needsKey = false := by
    by_contra hk
    simp [needsTrace_of_needsKey (by simpa using hk)] at h
  cases hi : i.indexLegal <;> cases hv : s.TRV <;> simp [failedCheck, h, hk, hi, hv]

/-! The cell of a guarded command exists exactly where its index operands are legal (60_exceptions R214). -/

theorem wsCell_isSome (k : BitVec 3) (s : State) : (wsCell k s).isSome = decide (k.toNat ≤ 5) := by
  rcases wsCell_cases k s with ⟨h, hc⟩ | ⟨h, hc⟩ <;> simp [hc] <;> omega

theorem rksCell_isSome (k : BitVec 2) (s : State) : (rksCell k s).isSome = decide (k.toNat ≤ 2) := by
  rcases rksCell_cases k s with ⟨h, hc⟩ | ⟨h, hc⟩ <;> simp [hc] <;> omega

theorem tbsCell_isSome (k : BitVec 4) (s : State) : (tbsCell k s).isSome = decide (k.toNat ≤ 10) := by
  rcases tbsCell_cases k s with ⟨h, hc⟩ | ⟨h, hc⟩ <;> simp [hc] <;> omega

theorem tbsWord_isSome (k : BitVec 4) (j : BitVec 3) (s : State) :
    (tbsWord k j s).isSome = (decide (k.toNat ≤ 10) && decide (j.toNat ≤ 5)) := by
  rcases tbsWord_cases k j s with ⟨h, h', hc⟩ | ⟨h, hc⟩ <;> simp [hc] <;> omega

/-- What a command whose checks pass can do, one constructor per group of rows of the write matrix (10_state R36). -/
inductive Performs : Instr → State → State → Prop where
  | read {i : Instr} {s : State} (hi : i.onlyReads = true) (v : Word) : Performs i s (s.respond v)
  | writeS {i : Instr} {s : State} (hi : i.writes = [.S]) (v : Word) : Performs i s (s.replaceS v)
  | loadKey {s : State} (v : Word) : Performs (.ldk v) s ((s.loadKey v).respond 0)
  | expandKey {s : State} : Performs .kexp s ((s.runKeySchedule Config.sbox).respond 0)
  | pipeline {i : Instr} {s : State} (hi : i = .enc ∨ i = .dec) (v : Word) :
      Performs i s ((s.runKeySchedule Config.sbox).replaceS v)
  | trace {s : State} (m : Mode) : Performs (.trc m) s (trcAt Config.sbox m s)
  | reset {s : State} : Performs .rst s (s.clear.respond 0)

/-- What a command can do: it enters the error of its first check that fails, or performs its work. -/
inductive Executes (i : Instr) (s : State) : State → Prop where
  | fails {e : ErrorKind} (he : failedCheck i s = some e) : Executes i s (s.raise e)
  | performs {t : State} (hok : failedCheck i s = none) (ht : Performs i s t) : Executes i s t

/-- A guarded command enters the error of its first check that fails, or goes on with the cell. -/
theorem Executes.of_guarded {α : Type} {i : Instr} {s : State} {cell : Option α} {valid : Bool} {e : ErrorKind}
    {use : α → State} (hcell : cell.isSome = i.indexLegal)
    (hcheck : failedCheck i s = if i.indexLegal then if valid then none else some e else some .index)
    (huse : ∀ c, Performs i s (use c)) : Executes i s (s.guarded cell valid e use) := by
  rcases s.guarded_cases cell valid e use with ⟨rfl, h⟩ | ⟨c, rfl, rfl, h⟩ | ⟨c, rfl, rfl, h⟩ <;> rw [h]
  · exact .fails (by simp [hcheck, ← hcell])
  · exact .fails (by simp [hcheck, ← hcell])
  · exact .performs (by simp [hcheck, ← hcell]) (huse c)

/-- Every command has a next state, and it is one of those `Executes` lists (60_exceptions R227). -/
theorem exec_executes (i : Instr) (s : State) : ∃ t, exec i s = .next t ∧ Executes i s t := by
  cases i
  case rdst | gfm | sbx | isbx | sbb | isbb | rds | rdn | rdm | rtn | rdk =>
    exact ⟨_, rfl, .performs rfl (.read rfl _)⟩
  case lds | wrn | wrm | arki | subn | isubn | mixc | imixc | shrw => exact ⟨_, rfl, .performs rfl (.writeS rfl _)⟩
  case ldk v => exact ⟨_, rfl, .performs rfl (.loadKey v)⟩
  case kexp => exact ⟨_, rfl, .performs rfl .expandKey⟩
  case enc => exact ⟨_, rfl, .performs rfl (.pipeline (.inl rfl) _)⟩
  case dec => exact ⟨_, rfl, .performs rfl (.pipeline (.inr rfl) _)⟩
  case trc m => exact ⟨_, rfl, .performs rfl (.trace m)⟩
  case rst => exact ⟨_, rfl, .performs rfl .reset⟩
  case rdw k => exact ⟨_, rfl, .of_guarded (wsCell_isSome k s) (failedCheck_needsKey rfl) fun _ => .read rfl _⟩
  case rdrk k => exact ⟨_, rfl, .of_guarded (rksCell_isSome k s) (failedCheck_needsKey rfl) fun _ => .read rfl _⟩
  case ark k => exact ⟨_, rfl, .of_guarded (rksCell_isSome k s) (failedCheck_needsKey rfl) fun _ => .writeS rfl _⟩
  case rdti k | rdts k | rdtk k =>
    exact ⟨_, rfl, .of_guarded (tbsCell_isSome k s) (failedCheck_needsTrace rfl) fun _ => .read rfl _⟩
  case rdtw k j =>
    exact ⟨_, rfl, .of_guarded (tbsWord_isSome k j s) (failedCheck_needsTrace rfl) fun _ => .read rfl _⟩

/-- Whatever a command answers is one of the states `Executes` lists. -/
theorem executes_of_exec {i : Instr} {s t : State} (h : exec i s = .next t) : Executes i s t := by
  obtain ⟨u, hu, hexec⟩ := exec_executes i s
  rw [hu] at h
  cases h
  exact hexec

/-- The next state after a command word: its command's, or that of `E_ILLEGAL` for an illegal one (30_encoding R75, R77). -/
theorem present_next_cases {cmd : Command} {s t : State} (h : present cmd s = .next t) :
    (∃ i, decode cmd = .ok i ∧ Executes i s t) ∨ (∃ e, decode cmd = .error e ∧ t = s.raise .illegal) := by
  rcases present_cases cmd s with ⟨i, hi, hrun⟩ | ⟨e, he, hraise⟩
  · exact .inl ⟨i, hi, executes_of_exec (hrun ▸ h)⟩
  · rw [hraise] at h
    cases h
    exact .inr ⟨e, he, rfl⟩

/-- A command with a check that fails enters that error (60_exceptions R218). -/
theorem exec_of_failedCheck {i : Instr} {s : State} {e : ErrorKind} (h : failedCheck i s = some e) :
    exec i s = .next (s.raise e) := by
  obtain ⟨t, ht, hexec⟩ := exec_executes i s
  cases hexec with
  | fails he =>
    obtain rfl : _ = e := Option.some.inj (he.symm.trans h)
    exact ht
  | performs hok => simp [hok] at h

/-- A command word that raises an error enters it (60_exceptions R218). -/
theorem present_of_errorOf {cmd : Command} {s : State} {e : ErrorKind} (h : errorOf cmd s = some e) :
    present cmd s = .next (s.raise e) := by
  rcases present_cases cmd s with ⟨i, hi, hrun⟩ | ⟨d, hd, hraise⟩
  · rw [errorOf_of_decode_ok hi] at h
    exact hrun.trans (exec_of_failedCheck h)
  · obtain rfl : .illegal = e := Option.some.inj ((errorOf_of_decode_error hd s).symm.trans h)
    exact hraise

/-! ## The write matrix -/

/-- An error writes no column (60_exceptions R218). -/
theorem sameData_raise (e : ErrorKind) (s : State) : SameData s (s.raise e) := fun c => by cases c <;> rfl

/-- A blank cell of the write matrix is never written (10_state R36). -/
theorem Performs.same_of_not_mem {i : Instr} {s t : State} (h : Performs i s t) {c : Column} (hc : c ∉ i.writes) :
    c.same s t := by
  cases h with
  | read => cases c <;> rfl
  | writeS hi =>
    rw [hi] at hc
    cases c with
    | S => simp at hc
    | _ => rfl
  | loadKey =>
    cases c with
    | K | KSV => simp [Instr.writes] at hc
    | _ => rfl
  | expandKey =>
    cases c with
    | W | KSV => simp [Instr.writes] at hc
    | _ => rfl
  | pipeline hi =>
    have hwrites : i.writes = [.S, .W, .KSV] := by rcases hi with rfl | rfl <;> rfl
    rw [hwrites] at hc
    cases c with
    | S | W | KSV => simp at hc
    | _ => rfl
  | trace m =>
    rw [trcAt_eq]
    cases c with
    | K => rfl
    | _ => simp [Instr.writes] at hc
  | reset => cases c <;> simp [Instr.writes] at hc

/-- A command that performs its work returns one response, without an error, and leaves what the host will still do. -/
theorem Performs.responds {i : Instr} {s t : State} (h : Performs i s t) :
    (∃ v, t.replies = s.replies ++ [⟨false, v⟩]) ∧ t.pending = s.pending := by
  cases h with
  | trace m =>
    rw [trcAt_eq]
    exact ⟨⟨_, rfl⟩, rfl⟩
  | _ => exact ⟨⟨_, rfl⟩, rfl⟩

/-- No command that performs its work writes the error flags, but for `RST` (10_state R28). -/
theorem Performs.errorFlags {i : Instr} {s t : State} (h : Performs i s t) (hi : i ≠ .rst) :
    t.ERR = s.ERR ∧ t.ECODE = s.ECODE := by
  cases h with
  | reset => exact absurd rfl hi
  | trace m =>
    rw [trcAt_eq]
    exact ⟨rfl, rfl⟩
  | _ => exact ⟨rfl, rfl⟩

/-- Settles O51: a failing command writes no column, another only the columns of its row; the constants are read off the next
state of their commands. -/
theorem writeMatrix : Obligations.WriteMatrix := by
  intro i s t h
  refine ⟨fun c hc => ?blank, ?ldk, ?schedule, ?trc, ?rst, ?response⟩
  case blank =>
    cases executes_of_exec h with
    | fails => exact sameData_raise _ s c
    | performs _ hperforms => exact hperforms.same_of_not_mem hc
  case ldk =>
    rintro v rfl
    cases h
    rfl
  case schedule => rintro (rfl | rfl | rfl) <;> cases h <;> rfl
  case trc =>
    rintro m rfl
    rw [← Host.Outcome.next.inj h, trcAt_eq]
    exact ⟨rfl, rfl, rfl⟩
  case rst =>
    rintro rfl c
    cases h
    cases c <;> rfl
  case response =>
    cases executes_of_exec h with
    | fails => exact ⟨_, rfl, fun _ => sameData_raise _ s, rfl⟩
    | performs _ hperforms =>
      obtain ⟨⟨v, hv⟩, hpending⟩ := hperforms.responds
      exact ⟨_, hv, nofun, hpending⟩

/-- Settles O48: a word with an error enters it, and only `RST` writes the flags without one. -/
theorem errorFlagsAreSticky : Obligations.ErrorFlagsAreSticky := by
  intro cmd s t h
  refine ⟨fun e he => ?raised, fun hnone hrst => ?kept, fun hrst => ?cleared⟩
  case raised =>
    obtain rfl : s.raise e = t := Host.Outcome.next.inj ((present_of_errorOf he).symm.trans h)
    exact ⟨rfl, rfl⟩
  case kept =>
    rcases present_next_cases h with ⟨i, hi, hexec⟩ | ⟨d, hd, -⟩
    · rw [errorOf_of_decode_ok hi] at hnone
      cases hexec with
      | fails he => simp [hnone] at he
      | performs _ hperforms => exact hperforms.errorFlags (by rintro rfl; exact hrst hi)
    · simp [errorOf_of_decode_error hd] at hnone
  case cleared =>
    rw [present_of_decode_ok hrst] at h
    cases h
    exact ⟨rfl, rfl⟩

/-! ## Invariants -/

/-- The trace begins with its input (46_trace R191). -/
@[simp] theorem generateTrace_input (σ : SBox) (x k : Word) (m : Mode) : (generateTrace σ x k m)[0].state = x := by
  cases m <;> rfl

/-- Record 1 of the trace holds the schedule of its key (46_trace R191). -/
@[simp] theorem generateTrace_words (σ : SBox) (x k : Word) (m : Mode) :
    (generateTrace σ x k m)[1].words = (expandKey σ k).words := by
  cases m <;> rfl

/-- A 16-bit value is its two bytes. -/
theorem highByte_append_lowByte (v : Word) : highByte v ++ lowByte v = v :=
  BitVec.extractLsb'_append_extractLsb' (w := 8) (len := 8) (x := v)

/-- The first two words of a schedule are its key (43_key_schedule R135). -/
@[simp] theorem expandKey_words_key (σ : SBox) (k : Word) : (expandKey σ k).words[0] ++ (expandKey σ k).words[1] = k :=
  highByte_append_lowByte k

/-- The codes of the errors are 1 to 4 (60_exceptions R211). -/
theorem ErrorKind.code_range (e : ErrorKind) : e.code ≠ 0 ∧ e.code.toNat ≤ 4 := by
  cases e <;> decide

/-- Settles O54: nothing is valid after reset, so I1 and I2 ask nothing. -/
theorem resetIsCoherent : Obligations.ResetIsCoherent where
  wordFile := nofun
  traceBuffer := nofun
  stage := rfl
  errorFlags := by decide
  errorCode := by decide
  mode := fun _ => rfl

namespace Coherent
variable {s t : State}

/-- The invariants speak neither of `S` nor of the host's side. -/
theorem update (h : Coherent s) (v : Word) (actions : List HostAction) (rs : List Response) :
    Coherent { s with S := v, pending := actions, replies := rs } :=
  ⟨h.wordFile, h.traceBuffer, h.stage, h.errorFlags, h.errorCode, h.mode⟩

theorem leave (h : Coherent s) (rest : List HostAction) : Coherent (s.leave rest) := h.update s.S rest s.replies

theorem respond (h : Coherent s) (v : Word) : Coherent (s.respond v) := h.update s.S s.pending _

theorem replaceS (h : Coherent s) (v : Word) : Coherent (s.replaceS v) := h.update v s.pending _

/-- Reset, whatever came before it (70_reset_and_hazards R230). -/
theorem clear (s : State) : Coherent s.clear := resetIsCoherent.update 0 s.pending s.replies

/-- An error: the first one since reset sets `ECODE` to its code, a later one leaves it (10_state R28). -/
theorem raise (h : Coherent s) (e : ErrorKind) : Coherent (s.raise e) where
  wordFile := h.wordFile
  traceBuffer := h.traceBuffer
  stage := h.stage
  errorFlags := by
    cases herr : s.ERR with
    | false => simpa [herr] using e.code_range.1
    | true => simpa [herr] using mt h.errorFlags.mp
  errorCode := by
    cases herr : s.ERR with
    | false => simp [herr, e.code_range.2]
    | true => simp [herr, h.errorCode]
  mode := h.mode

/-- A new key invalidates the word file (10_state R25). -/
theorem loadKey (h : Coherent s) (v : Word) : Coherent (s.loadKey v) :=
  { h with wordFile := nofun }

/-- A key-schedule run makes the word file the schedule of `K` (10_state R22). -/
theorem runKeySchedule (h : Coherent s) : Coherent (s.runKeySchedule Config.sbox) :=
  { h with wordFile := fun _ => rfl }

/-- A trace fills the buffer with the trace of the state and the key it started from (46_trace R190). -/
theorem trcAt (h : Coherent s) (m : Mode) : Coherent (trcAt Config.sbox m s) := by
  rw [trcAt_eq]
  exact
    { h with
      wordFile := fun _ => rfl
      traceBuffer := fun _ => by simp [State.tracedKey]
      stage := rfl
      mode := nofun }

/-- A command that performs its work keeps the invariants. -/
theorem performs (h : Coherent s) {i : Instr} (hi : Performs i s t) : Coherent t := by
  cases hi with
  | read _ v => exact h.respond v
  | writeS _ v => exact h.replaceS v
  | loadKey v => exact (h.loadKey v).respond 0
  | expandKey => exact h.runKeySchedule.respond 0
  | pipeline _ v => exact h.runKeySchedule.replaceS v
  | trace m => exact h.trcAt m
  | reset => exact (clear s).respond 0

/-- A command word keeps the invariants, whether it raises an error or not. -/
theorem present (h : Coherent s) {cmd : Command} (hcmd : present cmd s = .next t) : Coherent t := by
  rcases present_next_cases hcmd with ⟨i, -, hexec⟩ | ⟨-, -, rfl⟩
  · cases hexec with
    | fails => exact h.raise _
    | performs _ hperforms => exact h.performs hperforms
  · exact h.raise .illegal

end Coherent

/-- Settles O53: idle, the reset input, or a command, each of which keeps the invariants. -/
theorem stepKeepsCoherence : Obligations.StepKeepsCoherence := by
  intro s t h hstep
  rcases step_cases s with ⟨-, hidle⟩ | ⟨rest, -, hreset⟩ | ⟨cmd, rest, -, hpresent⟩
  · rw [hidle] at hstep
    cases hstep
    exact h
  · rw [hreset] at hstep
    cases hstep
    exact .clear _
  · exact (h.leave rest).present (hpresent ▸ hstep)

/-- The invariants hold along every run that starts with them. -/
theorem Runs.coherent {s t : State} (h : Runs s t) (hs : Coherent s) : Coherent t := by
  induction h with
  | refl => exact hs
  | tail _ hstep ih => exact stepKeepsCoherence _ _ ih hstep

/-- Round key 0 of a valid word file is the key (43_key_schedule R135). -/
theorem Coherent.RK_zero {s : State} (h : Coherent s) (hvalid : s.KSV = true) : s.RK[0] = s.K := by
  rw [State.RK, h.wordFile hvalid]
  exact expandKey_words_key _ _

/-- The bits of `STATUS` above `ECODE` are 0 (10_state R24). -/
theorem STATUS_reserved (s : State) : s.STATUS.extractLsb' 11 5 = 0 := by
  refine (BitVec.extractLsb'_append_eq_of_le (xlo := BitVec.ofBool s.KSV) (by decide)).trans ?_
  simp only [BitVec.extractLsb'_append_eq_of_le, Nat.reduceLeDiff, Nat.reduceSub]
  exact BitVec.extractLsb'_eq_self

/-- Settles O55, by induction on the run from reset. -/
theorem reachableStatesAreCoherent : Obligations.ReachableStatesAreCoherent := by
  rintro t ⟨actions, hrun⟩
  have ht : Coherent t := hrun.coherent (resetIsCoherent.leave actions)
  exact ⟨ht, ht.RK_zero, STATUS_reserved t⟩

/-! ## Reset -/

/-- Without a key schedule every in-range read of the word file raises `E_NOKEY`, code 3 (60_exceptions R215). -/
theorem exec_noKey {i : Instr} {s : State} (hneeds : i.needsKey = true) (hindex : i.indexLegal = true)
    (hvalid : s.KSV = false) : exec i s = .next (afterError 3 s) :=
  exec_of_failedCheck (e := .noKey) (by simp [failedCheck_needsKey hneeds, hindex, hvalid])

/-- Without a trace every in-range read of the trace buffer raises `E_NOTRACE`, code 4 (60_exceptions R216). -/
theorem exec_noTrace {i : Instr} {s : State} (hneeds : i.needsTrace = true) (hindex : i.indexLegal = true)
    (hvalid : s.TRV = false) : exec i s = .next (afterError 4 s) :=
  exec_of_failedCheck (e := .noTrace) (by simp [failedCheck_needsTrace hneeds, hindex, hvalid])

/-- Settles O12: the values are those of `State.reset`; neither file is valid on it. -/
theorem resetValues : Obligations.ResetValues := by
  refine ⟨rfl, rfl, by decide, rfl, rfl, rfl, rfl, rfl, rfl, by decide, rfl, ?words, ?roundKeys, ?records, ?tracedWords⟩
  case words => exact fun i hi => exec_noKey rfl (decide_eq_true hi) rfl
  case roundKeys => exact fun i hi => ⟨exec_noKey rfl (decide_eq_true hi) rfl, exec_noKey rfl (decide_eq_true hi) rfl⟩
  case records =>
    exact fun i hi => ⟨exec_noTrace rfl (decide_eq_true hi) rfl, exec_noTrace rfl (decide_eq_true hi) rfl,
      exec_noTrace rfl (decide_eq_true hi) rfl⟩
  case tracedWords => exact fun i j hi hj => exec_noTrace rfl (by simp [Instr.indexLegal, hi, hj]) rfl

end Sys2Proof.Machine
end

section
/-! PROOF. The address spaces: a write of a cell repeated changes nothing more, a read that succeeds changes nothing and answers
the same again (20_memory R62), and the trace buffer is written by `TRC` and reset only (20_memory R67). -/

namespace Sys2Proof.Machine

/-! ## The forms of a 16-bit value -/

/-- The nibbles of four joined nibbles are the four (42_codec R120). -/
@[simp] theorem toNibbles_fromNibbles (q : Nibbles) : toNibbles (fromNibbles q) = q := by
  ext1 n hn
  interval_cases n <;> simp [fromNibbles]

/-- The matrix of a value made of a matrix is that matrix (42_codec R120). -/
@[simp] theorem toMatrix_fromMatrix (m : NibbleMatrix) : toMatrix (fromMatrix m) = m := by
  ext r hr c hc
  interval_cases r <;> interval_cases c <;> simp [toMatrix, fromMatrix]

/-- Where `S` comes from a write of a nibble cell, the same write leaves it (20_memory R51). -/
theorem nsWrite_of_S_eq {i : BitVec 2} {v : Nibble} {s t : State} (h : t.S = nsWrite i v s) : nsWrite i v t = t.S := by
  simp [nsWrite, h]

/-- Where `S` comes from a write of a matrix cell, the same write leaves it (20_memory R52). -/
theorem msWrite_of_S_eq {r c : BitVec 1} {v : Nibble} {s t : State} (h : t.S = msWrite r c v s) : msWrite r c v t = t.S := by
  simp [msWrite, h]

/-! ## Responses -/

/-- A response changes no column. -/
theorem sameData_respond (v : Word) (s : State) : SameData s (s.respond v) := fun c => by cases c <;> rfl

/-- Writing to `S` what it holds is only a response. -/
theorem State.replaceS_self (s : State) : s.replaceS s.S = s.respond s.S := rfl

/-- The state after a response tells the data that was answered. -/
theorem State.respond_inj {s : State} {v w : Word} (h : s.respond v = s.respond w) : v = w := by
  simpa using congrArg State.replies h

/-- An error is no successful response. -/
theorem State.raise_ne_respond (e : ErrorKind) (s : State) (v : Word) : s.raise e ≠ s.respond v := fun h => by
  simpa using congrArg State.replies h

/-! ## A read -/

/-- A command that only reads and passes its checks does nothing but respond (10_state R36). -/
theorem Performs.eq_respond {i : Instr} {s t : State} (h : Performs i s t) (hi : i.onlyReads = true) :
    ∃ v, t = s.respond v := by
  cases h with
  | read _ v => exact ⟨v, rfl⟩
  | writeS hwrites => simp [Instr.onlyReads, hwrites] at hi
  | pipeline hpipeline => rcases hpipeline with rfl | rfl <;> cases hi
  | _ => cases hi

/-- A read that answers without an error leaves the state as it was but for its response. -/
theorem eq_respond_of_onlyReads {i : Instr} {s t : State} {v : Word} (hi : i.onlyReads = true) (h : exec i s = .next t)
    (hreplies : t.replies = s.replies ++ [⟨false, v⟩]) : t = s.respond v := by
  cases executes_of_exec h with
  | fails => simp at hreplies
  | performs _ hperforms =>
    obtain ⟨w, rfl⟩ := hperforms.eq_respond hi
    obtain rfl : w = v := by simpa using hreplies
    rfl

/-- An unguarded read answers the same after another response. -/
theorem next_respond_again {s : State} {v v' : Word}
    (h : (.next (s.respond v) : Host.Outcome State Fault Refusal) = .next (s.respond v')) (w : Word) :
    (.next ((s.respond w).respond v) : Host.Outcome State Fault Refusal) = .next ((s.respond w).respond v') := by
  rw [State.respond_inj (Host.Outcome.next.inj h)]

/-- A guarded read of the same cell under the same flag answers the same after another response. -/
theorem next_guarded_respond_again {α : Type} {s : State} {cell : Option α} {valid : Bool} {e : ErrorKind} {f : α → Word}
    {v : Word} (h : (.next (s.guarded cell valid e fun c => s.respond (f c)) : Host.Outcome State Fault Refusal) =
      .next (s.respond v)) (w : Word) :
    (.next ((s.respond w).guarded cell valid e fun c => (s.respond w).respond (f c)) : Host.Outcome State Fault Refusal) =
      .next ((s.respond w).respond v) := by
  have hnext := Host.Outcome.next.inj h
  rcases s.guarded_cases cell valid e fun c => s.respond (f c) with ⟨-, hraise⟩ | ⟨c, -, -, hraise⟩ | ⟨c, rfl, rfl, hread⟩
  · exact absurd (hraise.symm.trans hnext) (s.raise_ne_respond .index v)
  · exact absurd (hraise.symm.trans hnext) (s.raise_ne_respond e v)
  · rw [State.guarded_valid, State.respond_inj (hread.symm.trans hnext)]

/-- A read does not see the responses: one that succeeds answers the same after another response (20_memory R62). -/
theorem exec_read_again {i : Instr} {s : State} {v : Word} (hi : i.onlyReads = true) (h : exec i s = .next (s.respond v))
    (w : Word) : exec i (s.respond w) = .next ((s.respond w).respond v) := by
  cases i
  case rdst | gfm | sbx | isbx | sbb | isbb | rds | rdn | rdm | rtn | rdk => exact next_respond_again h w
  case rdw | rdrk | rdti | rdts | rdtk | rdtw => exact next_guarded_respond_again h w
  all_goals cases hi

/-! ## A write -/

/-- A write of `S`, of one of its cells or of `K`, run again, only responds (20_memory R62). -/
theorem exec_write_again {i : Instr} {s t : State}
    (hi : (∃ v, i = .lds v) ∨ (∃ k v, i = .wrn k v) ∨ (∃ r c v, i = .wrm r c v) ∨ ∃ v, i = .ldk v)
    (h : exec i s = .next t) : ∃ v, exec i t = .next (t.respond v) := by
  rcases hi with ⟨v, rfl⟩ | ⟨k, v, rfl⟩ | ⟨r, c, v, rfl⟩ | ⟨v, rfl⟩
  · cases h
    exact ⟨v, rfl⟩
  · have hS : t.S = nsWrite k v s := by cases h; rfl
    have hexec : exec (.wrn k v) t = .next (t.replaceS (nsWrite k v t)) := rfl
    exact ⟨t.S, by rw [hexec, nsWrite_of_S_eq hS, State.replaceS_self]⟩
  · have hS : t.S = msWrite r c v s := by cases h; rfl
    have hexec : exec (.wrm r c v) t = .next (t.replaceS (msWrite r c v t)) := rfl
    exact ⟨t.S, by rw [hexec, msWrite_of_S_eq hS, State.replaceS_self]⟩
  · cases h
    exact ⟨0, rfl⟩

/-- Settles O52: a read that succeeds is its response, whose data do not depend on the responses; a write run again is only a
response. -/
theorem readsHaveNoSideEffect : Obligations.ReadsHaveNoSideEffect := by
  refine ⟨fun i s t v hi h hreplies => ?read, fun i s t u hi ht hu => ?write⟩
  case read =>
    obtain rfl := eq_respond_of_onlyReads hi h hreplies
    exact ⟨rfl, exec_read_again hi h v⟩
  case write =>
    obtain ⟨v, hv⟩ := exec_write_again hi ht
    obtain rfl : t.respond v = u := Host.Outcome.next.inj (hv.symm.trans hu)
    exact ⟨sameData_respond v t, rfl, rfl⟩

/-! ## Lists of command words -/

/-- A state agrees with itself in every column. -/
theorem Column.same_refl (c : Column) (s : State) : c.same s s := by
  cases c <;> rfl

/-- Agreement in a column goes along a run. -/
theorem Column.same_trans {c : Column} {s t u : State} (hst : c.same s t) (htu : c.same t u) : c.same s u := by
  cases c <;> exact Eq.trans htu hst

/-- A list of command words is its first, which has a next state, and then the rest from there (60_exceptions R227). -/
theorem presentAll_cons (cmd : Command) (cs : List Command) (s : State) :
    ∃ t, present cmd s = .next t ∧ presentAll (cmd :: cs) s = presentAll cs t := by
  have hnext : ∃ t, present cmd s = .next t := by
    rcases present_cases cmd s with ⟨i, -, hrun⟩ | ⟨-, -, hraise⟩
    · obtain ⟨t, ht, -⟩ := exec_executes i s
      exact ⟨t, hrun.trans ht⟩
    · exact ⟨_, hraise⟩
  obtain ⟨t, ht⟩ := hnext
  exact ⟨t, ht, by rw [presentAll, ht]⟩

/-- A command word that does not decode to a writer of a column leaves that column (10_state R36). -/
theorem present_same_of_not_mem {cmd : Command} {s t : State} {c : Column} (h : present cmd s = .next t)
    (hc : ∀ i, decode cmd = .ok i → c ∉ i.writes) : c.same s t := by
  rcases present_cases cmd s with ⟨i, hi, hrun⟩ | ⟨-, -, hraise⟩
  · obtain ⟨hblank, -⟩ := writeMatrix i s t (hrun.symm.trans h)
    exact hblank c (hc i hi)
  · obtain rfl : s.raise .illegal = t := Host.Outcome.next.inj (hraise.symm.trans h)
    exact sameData_raise .illegal s c

/-- A list of command words without a writer of a column leaves that column (10_state R36). -/
theorem presentAll_same_of_not_mem {c : Column} {cs : List Command}
    (hc : ∀ cmd ∈ cs, ∀ i, decode cmd = .ok i → c ∉ i.writes) (s : State) : c.same s (presentAll cs s) := by
  induction cs generalizing s with
  | nil => exact c.same_refl s
  | cons cmd cs ih =>
    obtain ⟨hcmd, hcs⟩ := List.forall_mem_cons.mp hc
    obtain ⟨t, ht, hrest⟩ := presentAll_cons cmd cs s
    rw [hrest]
    exact Column.same_trans (present_same_of_not_mem ht hcmd) (ih hcs t)

/-- The columns of the trace are written by `TRC` and `RST` only (10_state R36). -/
theorem traceColumn_not_mem_writes {i : Instr} (hrst : i ≠ .rst) (htrc : ∀ m, i ≠ .trc m) {c : Column}
    (hc : c ∈ [Column.TB, .TRV, .MODE, .STAGE]) : c ∉ i.writes := by
  cases i with
  | rst => exact absurd rfl hrst
  | trc m => exact absurd rfl (htrc m)
  | _ => fin_cases hc <;> simp [Instr.writes]

/-- Settles O45: neither writer of the trace columns is in the list. -/
theorem traceBufferIsStable : Obligations.TraceBufferIsStable := by
  intro cs s hcs
  have hkept (c : Column) (hc : c ∈ [Column.TB, .TRV, .MODE, .STAGE]) : c.same s (presentAll cs s) := by
    refine presentAll_same_of_not_mem (fun cmd hcmd i hi => ?_) s
    obtain ⟨hrst, htrc⟩ := hcs cmd hcmd
    exact traceColumn_not_mem_writes (fun h => hrst (h ▸ hi)) (fun m h => htrc m (h ▸ hi)) hc
  exact ⟨hkept .TB (by decide), hkept .TRV (by decide), hkept .MODE (by decide), hkept .STAGE (by decide)⟩

end Sys2Proof.Machine
end

section
/-! PROOF. Encoding: decoding undoes encoding, ignored bits, the legal opcodes (30_encoding R70 to R77), the
assembler and the pseudo-instructions (R84 to R86), and the one response of each command (R82, R83). -/

namespace Sys2Proof

/-! ## Fields of an immediate

The canonical immediate of a command is its operands joined and extended with zeros; the slices that decoding cuts from an
immediate, joined again, are one slice from bit 0 up. -/

/-- Zeros above a value extend it. -/
theorem zero_append_eq_setWidth {m k : Nat} (v : BitVec k) : (0 : BitVec m) ++ v = v.setWidth (m + k) := by
  have hempty : (0#0).setWidth m ++ v.setWidth k = (0#0 ++ v).setWidth (m + k) :=
    (BitVec.setWidth_append_of_eq rfl).symm
  simpa using hempty

/-- An extended value with another joined below it is the two joined, extended. -/
theorem setWidth_append_eq_setWidth {m n k : Nat} (u : BitVec m) (v : BitVec k) :
    u.setWidth n ++ v = (u ++ v).setWidth (n + k) := by
  simp [BitVec.setWidth_append_of_eq]

/-- Two slices of an immediate that meet are one longer slice (30_encoding R72). -/
theorem operand_append_operand {imm : Word} {lo hi k m : Nat} (h : hi = lo + k) :
    operand imm hi m ++ operand imm lo k = operand imm lo (m + k) :=
  BitVec.extractLsb'_append_extractLsb'_eq_extractLsb' h

/-- The slice of an immediate for a format without operands. -/
theorem operand_zero_width (imm : Word) (lo : Nat) : operand imm lo 0 = 0 := BitVec.of_length_zero

@[simp] theorem bit_modeOfBit (b : BitVec 1) : (modeOfBit b).bit = b := by
  revert b
  decide

@[simp] theorem modeOfBit_bit (m : Mode) : modeOfBit m.bit = m := by
  cases m <;> rfl

/-! ## Decoding an encoding -/

/-- Settles O1, by the number of operands: none, one that fills the immediate, or some below zeros. In the last case the
immediate is the joined operands, from which each slice cuts its operand; the widths stay written as sums, the form in which
the library states its rules for `++`. -/
theorem decodeInvertsEncode : Obligations.DecodeInvertsEncode := by
  intro i
  cases i
  case rdst | rst | rds | rdk | kexp | subn | isubn | mixc | imixc | shrw | enc | dec => rfl
  case lds | ldk | arki => exact decode_commandWord (by simp [instrOf, operand])
  all_goals
    simp only [encode, zero_append_eq_setWidth, setWidth_append_eq_setWidth]
    refine decode_commandWord ?_
    simp (disch := omega) [instrOf, operand, BitVec.extractLsb'_setWidth_of_le, BitVec.extractLsb'_append_eq_of_le,
      BitVec.extractLsb'_append_eq_right, BitVec.extractLsb'_eq_self, -Nat.reduceAdd, -BitVec.setWidth_append_of_eq]

/-- Two commands with the same canonical encoding are one. -/
theorem encode_inj {i j : Instr} (h : encode i = encode j) : i = j := by
  have hdecode := decodeInvertsEncode i
  rw [h, decodeInvertsEncode j] at hdecode
  exact (Except.ok.inj hdecode).symm

/-! ## Encoding a decoded word -/

/-- A word decodes to what its opcode and its immediate name (30_encoding R77). -/
theorem decode_eq_ok_iff {w : Command} {i : Instr} : decode w = .ok i ↔ instrOf (opField w) (immField w) = some i := by
  unfold decode
  cases instrOf (opField w) (immField w) <;> simp

/-- An opcode from its number. -/
theorem eq_ofNat_of_toNat_eq {op : Byte} {n : Nat} (h : op.toNat = n) : op = BitVec.ofNat 8 n := by
  rw [← h, BitVec.ofNat_toNat, BitVec.setWidth_eq]

/-- How many bits of the immediate the format of a command names, from bit 0 up (30_encoding R71). -/
def Instr.operandBits (i : Instr) : Nat := i.line.mnemonic.operandWidths.sum

/-- The canonical encoding of what an opcode and an immediate name keeps the opcode and the bits that the format names: in
each row of 30_encoding R73 the slices join to one. -/
theorem encode_of_instrOf {op : Byte} {imm : Word} {i : Instr} (h : instrOf op imm = some i) :
    encode i = commandWord op ((operand imm 0 i.operandBits).setWidth 16) := by
  unfold instrOf at h
  split at h <;> cases h
  all_goals
    next hop =>
    obtain rfl := eq_ofNat_of_toNat_eq hop
    simp only [encode, zero_append_eq_setWidth, setWidth_append_eq_setWidth, bit_modeOfBit, operand_append_operand]
    simp [Instr.operandBits, Instr.line, Mnemonic.operandWidths, operand_zero_width]

/-- Whatever the immediate, a legal opcode names a command, always with the same ignored bits (30_encoding R74, R76). -/
theorem instrOf_ignoredBits {op : Byte} {imm : Word} {i : Instr} (h : instrOf op imm = some i) (imm' : Word) :
    ∃ j, instrOf op imm' = some j ∧ ignoredBits j = ignoredBits i := by
  unfold instrOf at h
  split at h <;> cases h
  all_goals
    next hop =>
    obtain rfl := eq_ofNat_of_toNat_eq hop
    exact ⟨_, rfl, rfl⟩

/-! ## Ignored bits -/

/-- The bits of a command word from bit `k` of its immediate up to the end of the immediate. -/
def immBitsFrom (k : Nat) : Command := commandWord 0 (BitVec.allOnes 16 <<< k)

/-- The ignored bits are those of the immediate above the operands (30_encoding R76). -/
theorem ignoredBits_eq_immBitsFrom (i : Instr) : ignoredBits i = immBitsFrom i.operandBits := by
  cases i <;> simp only [ignoredBits, Instr.operandBits, Instr.line, Mnemonic.operandWidths] <;> decide

theorem commandWord_and (op op' : Byte) (imm imm' : Word) :
    commandWord op imm &&& commandWord op' imm' = commandWord (op &&& op') (imm &&& imm') :=
  BitVec.and_append

theorem commandWord_not (op : Byte) (imm : Word) : ~~~commandWord op imm = commandWord (~~~op) (~~~imm) :=
  BitVec.not_append

/-- Clearing the bits from `k` up leaves the slice of the lowest `k`. -/
theorem and_not_allOnes_shiftLeft {w : Nat} (v : BitVec w) (k : Nat) :
    v &&& ~~~(BitVec.allOnes w <<< k) = (v.extractLsb' 0 k).setWidth w := by
  refine BitVec.eq_of_getLsbD_eq fun n hn => ?_
  by_cases h : n < k
  · simp [hn, h]
  · simp [hn, h]

/-- A word with the bits of its immediate from `k` up cleared. -/
theorem commandWord_clear (op : Byte) (imm : Word) (k : Nat) :
    commandWord op imm &&& ~~~immBitsFrom k = commandWord op ((operand imm 0 k).setWidth 16) := by
  rw [immBitsFrom, commandWord_not, commandWord_and, and_not_allOnes_shiftLeft, operand]
  congr 1
  exact BitVec.and_allOnes

/-- Clearing ignored bits leaves the opcode. -/
theorem opField_clear (w : Command) (i : Instr) : opField (w &&& ~~~ignoredBits i) = opField w := by
  rw [ignoredBits_eq_immBitsFrom, ← commandWord_fields w, commandWord_clear, opField_commandWord, opField_commandWord]

/-- The canonical encoding of what a word decodes to is the word with its ignored bits cleared (30_encoding R86). -/
theorem encode_of_decode {w : Command} {i : Instr} (h : decode w = .ok i) : encode i = w &&& ~~~ignoredBits i :=
  calc encode i
    _ = commandWord (opField w) ((operand (immField w) 0 i.operandBits).setWidth 16) :=
      encode_of_instrOf (decode_eq_ok_iff.mp h)
    _ = commandWord (opField w) (immField w) &&& ~~~immBitsFrom i.operandBits := (commandWord_clear _ _ _).symm
    _ = w &&& ~~~ignoredBits i := by rw [commandWord_fields, ignoredBits_eq_immBitsFrom]

/-- A word that differs from a legal one in ignored bits only has its opcode, so it decodes to a command of the same format,
and that command has the same canonical encoding (30_encoding R76). -/
theorem decode_of_clear_eq {w w' : Command} {i : Instr} (h : decode w = .ok i)
    (hclear : w &&& ~~~ignoredBits i = w' &&& ~~~ignoredBits i) : decode w' = .ok i := by
  have hop : opField w = opField w' := by rw [← opField_clear w i, hclear, opField_clear]
  obtain ⟨j, hj, hignored⟩ := instrOf_ignoredBits (decode_eq_ok_iff.mp h) (immField w')
  have hdecode : decode w' = .ok j := decode_eq_ok_iff.mpr (hop ▸ hj)
  have hencode : encode j = encode i := by rw [encode_of_decode hdecode, hignored, ← hclear, encode_of_decode h]
  exact encode_inj hencode ▸ hdecode

/-- Every ignored bit of a canonical encoding is 0 (30_encoding R76). -/
theorem encode_and_ignoredBits (i : Instr) : encode i &&& ignoredBits i = 0 := by
  rw [encode_of_decode (decodeInvertsEncode i), BitVec.and_assoc]
  simp

/-! ## The assembler -/

/-- The value of a mode operand is its number (30_encoding R84). -/
theorem value_modeOfBit_ofNat {n : Nat} (h : n < 2) : (AsmOperand.modeName (modeOfBit (BitVec.ofNat 1 n))).value = n := by
  interval_cases n <;> rfl

/-- Where numbers that fit name an instruction, its line has their mnemonic and the numbers (30_encoding R84). -/
theorem line_of_instrOfLine {m : Mnemonic} {ns : List Nat} {i : Instr} (h : instrOfLine m ns = some i)
    (hfit : ∀ p ∈ ns.zip m.operandWidths, p.1 < 2 ^ p.2) : i.line = ⟨m, ns.map .num⟩ := by
  unfold instrOfLine at h
  split at h <;> cases h
  all_goals simp_all [Instr.line, Mnemonic.operandWidths, Nat.mod_eq_of_lt, value_modeOfBit_ofNat]

/-- The second check of the assembler, on the numbers the operands stand for. -/
theorem AsmLine.fits_iff (l : AsmLine) :
    l.fits = true ↔ ∀ p ∈ (l.operands.map AsmOperand.value).zip l.mnemonic.operandWidths, p.1 < 2 ^ p.2 := by
  simp only [AsmLine.fits, List.zip_map_left, List.all_eq_true, List.forall_mem_map, Prod.map_fst, Prod.map_snd, id,
    decide_eq_true_eq]

/-- An instruction is written by every line that names it, with numbers for operands (30_encoding R86). -/
theorem line_of_toInstr {l : AsmLine} {i : Instr} (h : l.toInstr = some i) : i.line = l.canonical := by
  unfold AsmLine.toInstr at h
  split at h
  next hwf =>
    have hfits : l.fits = true := by simp_all [AsmLine.wellFormed]
    rw [line_of_instrOfLine h (l.fits_iff.mp hfits), AsmLine.canonical, List.map_map, Function.comp_def]
  next => cases h

/-- The line of an instruction names it (30_encoding R84). -/
theorem toInstr_line : ∀ i : Instr, i.line.toInstr = some i
  | .rdst => Laws.LineNames.rdst
  | .rst => Laws.LineNames.rst
  | .gfm a b => Laws.LineNames.gfm a b
  | .sbx n => Laws.LineNames.sbx n
  | .isbx n => Laws.LineNames.isbx n
  | .sbb b => Laws.LineNames.sbb b
  | .isbb b => Laws.LineNames.isbb b
  | .lds v => Laws.LineNames.lds v
  | .rds => Laws.LineNames.rds
  | .rdn i => Laws.LineNames.rdn i
  | .wrn i v => Laws.LineNames.wrn i v
  | .rdm r c => Laws.LineNames.rdm r c
  | .wrm r c v => Laws.LineNames.wrm r c v
  | .rtn b => Laws.LineNames.rtn b
  | .ldk v => Laws.LineNames.ldk v
  | .rdk => Laws.LineNames.rdk
  | .kexp => Laws.LineNames.kexp
  | .rdw i => Laws.LineNames.rdw i
  | .rdrk i => Laws.LineNames.rdrk i
  | .ark i => Laws.LineNames.ark i
  | .arki v => Laws.LineNames.arki v
  | .subn => Laws.LineNames.subn
  | .isubn => Laws.LineNames.isubn
  | .mixc => Laws.LineNames.mixc
  | .imixc => Laws.LineNames.imixc
  | .shrw => Laws.LineNames.shrw
  | .enc => Laws.LineNames.enc
  | .dec => Laws.LineNames.dec
  | .trc m => Laws.LineNames.trc m
  | .rdti i => Laws.LineNames.rdti i
  | .rdts i => Laws.LineNames.rdts i
  | .rdtk i => Laws.LineNames.rdtk i
  | .rdtw i j => Laws.LineNames.rdtw i j

/-- The word the assembler makes of a line decodes to an instruction that the line writes (30_encoding R86). -/
theorem decode_of_assemble {l : AsmLine} {w : Command} (h : assemble l = some w) :
    ∃ i, decode w = .ok i ∧ i.line = l.canonical := by
  obtain ⟨i, hi, rfl⟩ := Option.map_eq_some_iff.mp h
  exact ⟨i, decodeInvertsEncode i, line_of_toInstr hi⟩

/-- Settles O2: a line is assembled through the instruction it names, and a legal word determines its canonical encoding. -/
theorem assemblyRoundTrip : Obligations.AssemblyRoundTrip := by
  refine ⟨fun i => ?line, fun m => ?modeName, fun l w => decode_of_assemble, fun w i => encode_of_decode⟩
  case line => rw [assemble, toInstr_line, Option.map_some]
  case modeName => cases m <;> rfl

/-- Settles O3: the canonical encoding is the word with its ignored bits cleared, and it determines the command. -/
theorem ignoredBitsChangeNothing : Obligations.IgnoredBitsChangeNothing :=
  ⟨fun _ _ _ => decode_of_clear_eq, by decide, encode_and_ignoredBits⟩

/-- Settles O5: the thirteen lines are assembled, and what is assembled decodes to its line. -/
theorem specLinesAssemble : Obligations.SpecLinesAssemble := by
  intro p hp
  have hassemble : assemble p.1 = some p.2 := by
    revert p
    decide
  exact ⟨hassemble, decode_of_assemble hassemble⟩

namespace Machine

/-! ## Legal opcodes -/

/-- The opcodes of the map are the legal ones, whatever the immediate (30_encoding R73, R75). -/
theorem instrOf_isSome_iff (op : Byte) (imm : Word) : (instrOf op imm).isSome = true ↔ op.toNat ∈ legalOpcodes := by
  unfold instrOf
  split
  case h_34 => simp_all [legalOpcodes]
  all_goals next hop => simp [hop, legalOpcodes]

/-- Of the 256 opcodes, all but the 33 of the map (30_encoding R75). -/
theorem illegalOpcodes_length : ((List.range 256).filter fun n => n ∉ legalOpcodes).length = 223 := by
  have hbound : ∀ n ∈ legalOpcodes, n < 256 := by decide
  have hperm : ((List.range 256).filter fun n => n ∈ legalOpcodes).Perm legalOpcodes := by
    refine (List.perm_ext_iff_of_nodup (List.nodup_range.filter _) (by decide)).mpr fun n => ?_
    simpa using hbound n
  have hlegal : legalOpcodes.length = 33 := rfl
  have hsplit := List.length_eq_length_filter_add (l := List.range 256) fun n => decide (n ∈ legalOpcodes)
  rw [hperm.length_eq, List.length_range, hlegal] at hsplit
  simp only [decide_not]
  omega

/-- Settles O4: a word decodes exactly where its opcode is in the map. -/
theorem illegalOpcodesRaise : Obligations.IllegalOpcodesRaise := by
  refine ⟨fun w hw => ?legal, fun w s hw => ?illegal, illegalOpcodes_length, by decide, by decide, by decide⟩
  case legal =>
    obtain ⟨i, hi⟩ := Option.isSome_iff_exists.mp ((instrOf_isSome_iff (opField w) (immField w)).mpr hw)
    exact ⟨i, decode_eq_ok_iff.mpr hi⟩
  case illegal =>
    refine present_of_decode_ne_ok (fun i hi => hw ?_) s
    exact (instrOf_isSome_iff (opField w) (immField w)).mp (by simp [decode_eq_ok_iff.mp hi])

/-! ## A word of the opcode table -/

/-- A placed word is the host's next action. -/
theorem withFetchWord_pending (s : State) (nbits w : Nat) :
    (s.withFetchWord nbits w).pending = .command (tableCommand nbits w) :: s.pending := rfl

/-- The host has then to do what it had to do before. -/
theorem leave_withFetchWord (s : State) (nbits w : Nat) : (s.withFetchWord nbits w).leave s.pending = s := rfl

/-- The instruction of a table word is the one its command decodes to. -/
theorem decode_of_decodeTableWord {nbits w : Nat} {i : Instr} (h : decodeTableWord nbits w = some i) :
    decode (tableCommand nbits w) = .ok i := by
  unfold decodeTableWord at h
  split at h
  next hdecode => rw [hdecode, Option.some.inj h]
  next => cases h

/-- Settles O8: the step presents the placed word, and presenting it runs its instruction. -/
theorem tableWordIsFetched : Obligations.TableWordIsFetched := by
  intro s w i _ h
  calc step (s.withFetchWord 24 w)
    _ = present (tableCommand 24 w) ((s.withFetchWord 24 w).leave s.pending) :=
      step_of_pending_command (withFetchWord_pending s 24 w)
    _ = present (tableCommand 24 w) s := by rw [leave_withFetchWord]
    _ = exec i s := present_of_decode_ok (decode_of_decodeTableWord h) s

/-! ## Responses -/

/-- Settles O50: a word that raises an error enters it; any other is a command that performs its work. -/
theorem oneResponsePerCommand : Obligations.OneResponsePerCommand := by
  intro cmd s
  cases herr : errorOf cmd s with
  | some e => exact ⟨_, _, present_of_errorOf herr, rfl, fun _ => ⟨sameData_raise e s, e, rfl, rfl⟩, nofun⟩
  | none =>
    rcases present_cases cmd s with ⟨i, hi, hrun⟩ | ⟨d, hd, -⟩
    · rw [errorOf_of_decode_ok hi] at herr
      obtain ⟨t, ht, hexec⟩ := exec_executes i s
      cases hexec with
      | fails he => simp [herr] at he
      | performs _ hperforms =>
        obtain ⟨⟨v, hv⟩, -⟩ := hperforms.responds
        exact ⟨t, _, hrun.trans ht, hv, nofun, fun _ => rfl⟩
    · simp [errorOf_of_decode_error hd] at herr

/-- What a command that performs its work answers, where the answer is uniform (30_encoding R83). -/
theorem Performs.answer {i : Instr} {s t : State} {v : Word} (h : Performs i s t)
    (hv : t.replies = s.replies ++ [⟨false, v⟩]) :
    (Column.S ∈ i.writes → v = t.S) ∧ (i = .kexp ∨ i = .rst ∨ (∃ k, i = .ldk k) → v = 0) := by
  cases h with
  | read hi =>
    have hwrites : i.writes = [] := List.isEmpty_iff.mp hi
    refine ⟨by simp [hwrites], ?_⟩
    rintro (rfl | rfl | ⟨k, rfl⟩) <;> cases hi
  | writeS hi w =>
    obtain rfl : w = v := by simpa using hv
    refine ⟨fun _ => rfl, ?_⟩
    rintro (rfl | rfl | ⟨k, rfl⟩) <;> cases hi
  | loadKey =>
    obtain rfl : 0 = v := by simpa using hv
    exact ⟨by simp [Instr.writes], fun _ => rfl⟩
  | expandKey =>
    obtain rfl : 0 = v := by simpa [runKeySchedule_eq] using hv
    exact ⟨by simp [Instr.writes], fun _ => rfl⟩
  | pipeline hi w =>
    obtain rfl : w = v := by simpa [runKeySchedule_eq] using hv
    exact ⟨fun _ => rfl, by rcases hi with rfl | rfl <;> simp⟩
  | trace m =>
    rw [trcAt_eq] at hv ⊢
    obtain rfl : _ = v := by simpa using hv
    exact ⟨fun _ => rfl, by simp⟩
  | reset =>
    obtain rfl : 0 = v := by simpa using hv
    exact ⟨fun _ => rfl, fun _ => rfl⟩

/-- Settles O58: a response without an error is that of a command that performs its work. -/
theorem responseDataIsUniform : Obligations.ResponseDataIsUniform := by
  intro i s t v h hv
  cases executes_of_exec h with
  | fails => simp at hv
  | performs _ hperforms => exact hperforms.answer hv

/-! ## The pseudo-instructions -/

/-- A list of instructions is its first and then the rest. -/
theorem execList_cons {i : Instr} {is : List Instr} {s t : State} (h : exec i s = .next t) :
    execList (i :: is) s = execList is t := by
  rw [execList, h]

/-- `ENC` runs the key schedule and then the encryption pipeline (45_pipeline R180). -/
theorem exec_enc (s : State) :
    exec .enc s = .next ((s.runKeySchedule Config.sbox).replaceS (encrypt Config.sbox s.S s.K)) := rfl

/-- `DEC` runs the key schedule and then the decryption pipeline (45_pipeline R181). -/
theorem exec_dec (s : State) :
    exec .dec s = .next ((s.runKeySchedule Config.sbox).replaceS (decrypt Config.sbox s.S s.K)) := rfl

/-- `TRC` runs the sequencer (46_trace R190). -/
theorem exec_trc (m : Mode) (s : State) : exec (.trc m) s = .next (trcAt Config.sbox m s) := rfl

/-- The state after `LDS x` and `LDK k`. -/
def State.loaded (x k : Word) (s : State) : State := ((s.replaceS x).loadKey k).respond 0

@[simp] theorem State.loaded_S (x k : Word) (s : State) : (s.loaded x k).S = x := rfl
@[simp] theorem State.loaded_K (x k : Word) (s : State) : (s.loaded x k).K = k := rfl
@[simp] theorem State.loaded_replies (x k : Word) (s : State) :
    (s.loaded x k).replies = s.replies ++ [⟨false, x⟩, ⟨false, 0⟩] :=
  List.append_assoc ..

/-- A command after the loads of its input and key. -/
theorem execList_loads {i : Instr} {x k : Word} {s t : State} (h : exec i (s.loaded x k) = .next t) :
    execList [.lds x, .ldk k, i] s = .next t := by
  have hloads : execList [.lds x, .ldk k, i] s = execList [i] (s.loaded x k) := rfl
  rw [hloads, execList_cons h, execList]

section TraceReads
variable {i : BitVec 4} {s : State} (h : i.toNat < 11) (hvalid : s.TRV = true)
include h hvalid

/-- A guarded read of the trace buffer goes on with the record where there is a trace and the index is up to 10. -/
theorem guarded_tbsCell (use : TraceRecord → State) :
    s.guarded (tbsCell i s) s.TRV .noTrace use = use s.TB[i.toNat] := by
  rw [tbsCell, Vector.getElem?_eq_getElem h, hvalid, State.guarded_valid]

theorem exec_rdti_of_valid : exec (.rdti i) s = .next (s.respond s.TB[i.toNat].idData) :=
  congrArg _ (guarded_tbsCell h hvalid _)

theorem exec_rdts_of_valid : exec (.rdts i) s = .next (s.respond s.TB[i.toNat].state) :=
  congrArg _ (guarded_tbsCell h hvalid _)

theorem exec_rdtk_of_valid : exec (.rdtk i) s = .next (s.respond s.TB[i.toNat].rk) :=
  congrArg _ (guarded_tbsCell h hvalid _)

end TraceReads

/-- Settles O6: each expansion is run command by command; the responses of `RDREC` leave the trace buffer as it was. -/
theorem pseudoInstructionsMakeTheirCalls : Obligations.PseudoInstructionsMakeTheirCalls := by
  refine ⟨fun k s => ?expand, fun x k s => ?encrypt, fun x k s => ?decrypt, fun x k m s => ?trace,
    fun i s h hvalid => ?rdrec⟩
  case expand => exact ⟨_, rfl, rfl, rfl, rfl, List.append_assoc ..⟩
  case encrypt => exact ⟨_, execList_loads (exec_enc _), by simp, rfl, by simp [runKeySchedule_eq]⟩
  case decrypt => exact ⟨_, execList_loads (exec_dec _), by simp, rfl, by simp [runKeySchedule_eq]⟩
  case trace =>
    exact ⟨_, execList_loads (exec_trc m _), by simp [trcAt_eq], by simp [trcAt_eq], by simp [trcAt_eq]⟩
  case rdrec =>
    have hrdti := exec_rdti_of_valid h hvalid
    have hrdts := exec_rdts_of_valid (s := s.respond s.TB[i.toNat].idData) h hvalid
    have hrdtk := exec_rdtk_of_valid (s := (s.respond s.TB[i.toNat].idData).respond s.TB[i.toNat].state) h hvalid
    exact ⟨_, (execList_cons hrdti).trans ((execList_cons hrdts).trans (execList_cons hrdtk)), by simp⟩

end Machine

end Sys2Proof
end

section
/-! PROOF. The product in GF(2⁴): the loop of `gfMultiply` makes the sum of R92, the laws of the field follow from that sum
(40_gf_arith R90 to R93, R96), and `GFM` answers the product (R95). -/

namespace Sys2Proof.Machine

/-! ## An opcode with operands -/

/-- An operand is the slice of the command word at the same place (30_encoding R70, R72). -/
theorem operand_immField (w : Command) {lo k : Nat} (h : lo + k ≤ 16) : operand (immField w) lo k = w.extractLsb' lo k := by
  ext n hn
  have hbit : lo + n < 16 := by omega
  simp [operand, immField, hbit]

/-- What an opcode names in the immediate of each command word is what its words decode to (30_encoding R73, R77). -/
theorem decodesAs_of_instrOf {op : Byte} {f : Command → Instr} (h : ∀ w, instrOf op (immField w) = some (f w)) :
    DecodesAs op f := by
  intro w hop
  have hfield : opField w = op := hop
  exact decode_eq_ok_iff.mpr (hfield ▸ h w)

/-! ## The loop

One iteration adds a term of the sum, multiplies `a` by x and moves on to the next bit of `b` (40_gf_arith R92). -/

@[simp] theorem gfIteration_acc (l : GfLoop) :
    (gfIteration l).acc = l.acc ^^^ (if l.b.getLsbD 0 then l.a else 0) := by
  simp only [gfIteration]
  split <;> simp

@[simp] theorem gfIteration_a (l : GfLoop) : (gfIteration l).a = xtime l.a := by
  simp only [gfIteration, xtime, reductionConstant]
  split <;> simp

@[simp] theorem gfIteration_b (l : GfLoop) : (gfIteration l).b = l.b >>> 1 := rfl

/-- The four iterations add the four terms (40_gf_arith R92). -/
theorem gfMultiply_eq_polyProduct (a b : Nibble) : gfMultiply a b = polyProduct a b := by
  simp [gfMultiply, gfIterate, polyProduct]

/-! ## The product is linear in its first operand -/

/-- An addend that a condition selects is selected addend by addend. -/
theorem ite_xor_zero (p : Prop) [Decidable p] (v w : Nibble) :
    (if p then v ^^^ w else 0) = (if p then v else 0) ^^^ (if p then w else 0) := by
  split <;> simp

/-- Multiplication by x is linear: where both operands overflow, the two reductions cancel. -/
theorem xtime_xor (a b : Nibble) : xtime (a ^^^ b) = xtime a ^^^ xtime b := by
  have hreduce : (if (a ^^^ b).getLsbD 3 then (3 : Nibble) else 0) =
      (if a.getLsbD 3 then 3 else 0) ^^^ (if b.getLsbD 3 then 3 else 0) := by
    rw [BitVec.getLsbD_xor]
    cases a.getLsbD 3 <;> cases b.getLsbD 3 <;> rfl
  simp only [xtime, hreduce, BitVec.shiftLeft_xor_distrib]
  ac_rfl

@[simp] theorem xtime_zero : xtime 0#4 = 0#4 := rfl

theorem gfMultiply_xor_left (a b c : Nibble) : gfMultiply (a ^^^ b) c = gfMultiply a c ^^^ gfMultiply b c := by
  simp only [gfMultiply_eq_polyProduct, polyProduct, xtime_xor, ite_xor_zero]
  ac_rfl

@[simp] theorem gfMultiply_zero_left (b : Nibble) : gfMultiply 0#4 b = 0#4 := by
  simp [gfMultiply_eq_polyProduct, polyProduct]

/-- A factor x comes out of the first operand. -/
theorem gfMultiply_xtime_left (a b : Nibble) : gfMultiply (xtime a) b = xtime (gfMultiply a b) := by
  simp only [gfMultiply_eq_polyProduct, polyProduct, xtime_xor, apply_ite xtime, BitVec.ofNat_eq_ofNat,
    xtime_zero]

/-! ## The laws of the field

The sum of R92 is a sum over the bits of the second operand, so with linearity in the first two factors on the right can change
places. As 1 is neutral on the left, all else follows from that. -/

/-- Multiplying by `b` and then by `c` adds the terms `xⁱ·(a·c)` for the bits `i` of `b`. -/
theorem gfMultiply_right_comm (a b c : Nibble) :
    gfMultiply (gfMultiply a b) c = gfMultiply (gfMultiply a c) b := by
  rw [gfMultiply_eq_polyProduct a b, gfMultiply_eq_polyProduct (gfMultiply a c) b]
  simp only [polyProduct, gfMultiply_xor_left, apply_ite (gfMultiply · c), gfMultiply_xtime_left,
    BitVec.ofNat_eq_ofNat, gfMultiply_zero_left]

/-- The sum for the first operand 1 puts the second operand together from its bits. -/
@[simp] theorem gfMultiply_one_left : ∀ b : Nibble, gfMultiply 1#4 b = b := by decide

theorem gfMultiply_comm (a b : Nibble) : gfMultiply a b = gfMultiply b a := by
  simpa using gfMultiply_right_comm 1 a b

theorem gfMultiply_assoc (a b c : Nibble) : gfMultiply (gfMultiply a b) c = gfMultiply a (gfMultiply b c) :=
  calc gfMultiply (gfMultiply a b) c
    _ = gfMultiply (gfMultiply b a) c := by rw [gfMultiply_comm a b]
    _ = gfMultiply (gfMultiply b c) a := gfMultiply_right_comm b a c
    _ = gfMultiply a (gfMultiply b c) := gfMultiply_comm _ a

theorem gfMultiply_xor_right (a b c : Nibble) : gfMultiply a (b ^^^ c) = gfMultiply a b ^^^ gfMultiply a c := by
  simp only [gfMultiply_comm a, gfMultiply_xor_left]

@[simp] theorem gfMultiply_zero_right (a : Nibble) : gfMultiply a 0#4 = 0#4 :=
  (gfMultiply_comm a 0).trans (gfMultiply_zero_left a)

@[simp] theorem gfMultiply_one_right (a : Nibble) : gfMultiply a 1#4 = a :=
  (gfMultiply_comm a 1).trans (gfMultiply_one_left a)

/-- The first operand 2 is the polynomial x (40_gf_arith R92). -/
theorem gfMultiply_two_left (a : Nibble) : gfMultiply 2 a = xtime a :=
  calc gfMultiply (xtime 1) a
    _ = xtime (gfMultiply 1 a) := gfMultiply_xtime_left 1 a
    _ = xtime a := congrArg xtime (gfMultiply_one_left a)

/-! ## Inverses -/

/-- The pairs of inverses (40_gf_arith R96 f). -/
def gfInversePairs : List (Nibble × Nibble) :=
  [(0x1, 0x1), (0x2, 0x9), (0x3, 0xE), (0x4, 0xD), (0x5, 0xB), (0x6, 0x7), (0x8, 0xF), (0xA, 0xC)]

theorem gfMultiply_of_mem_inversePairs : ∀ p ∈ gfInversePairs, gfMultiply p.1 p.2 = 1 := by
  intro p hp
  fin_cases hp <;> rfl

/-- The eight pairs name every nibble but 0. -/
theorem mem_inversePairs_of_ne_zero : ∀ a : Nibble, a ≠ 0 → ∃ p ∈ gfInversePairs, p.1 = a ∨ p.2 = a := by decide

theorem exists_gfMultiply_eq_one {a : Nibble} (h : a ≠ 0) : ∃ b, gfMultiply a b = 1 := by
  obtain ⟨p, hp, rfl | rfl⟩ := mem_inversePairs_of_ne_zero a h
  · exact ⟨p.2, gfMultiply_of_mem_inversePairs p hp⟩
  · exact ⟨p.1, (gfMultiply_comm p.2 p.1).trans (gfMultiply_of_mem_inversePairs p hp)⟩

/-- A factor with an inverse is undone by it. -/
theorem gfMultiply_cancel {a b : Nibble} (h : gfMultiply a b = 1) (c : Nibble) : gfMultiply b (gfMultiply a c) = c :=
  calc gfMultiply b (gfMultiply a c)
    _ = gfMultiply (gfMultiply b a) c := (gfMultiply_assoc b a c).symm
    _ = gfMultiply (gfMultiply a b) c := by rw [gfMultiply_comm b a]
    _ = c := by simp [h]

theorem gfMultiply_eq_zero {a b : Nibble} (h : gfMultiply a b = 0) : a = 0 ∨ b = 0 := by
  by_cases ha : a = 0
  · exact .inl ha
  · obtain ⟨a', hinverse⟩ := exists_gfMultiply_eq_one ha
    have hb : b = 0 := by simpa [h] using (gfMultiply_cancel hinverse b).symm
    exact .inr hb

/-- Two inverses of one nibble are equal. -/
theorem gfMultiply_eq_one_unique {a b c : Nibble} (hb : gfMultiply a b = 1) (hc : gfMultiply a c = 1) : c = b := by
  simpa [hc] using (gfMultiply_cancel hb c).symm

/-! ## The statements -/

/-- `GFM` answers the product, zero-extended (40_gf_arith R95). -/
theorem exec_gfm (a b : Nibble) (s : State) : exec (.gfm a b) s = .next (s.respond (zext16 (gfMultiply a b))) := rfl

/-- Settles O13: the answer of `GFM` is the product that the loop makes, which is the sum of R92. -/
theorem gfmAnswersPolynomialProduct : Obligations.GfmAnswersPolynomialProduct := by
  refine ⟨decodesAs_of_instrOf fun w => ?decodes, gfMultiply_eq_polyProduct, gfMultiply_two_left, fun a b s => ?answers⟩
  case decodes => simp [instrOf, operand_immField]
  case answers =>
    rw [exec_gfm, gfMultiply_eq_polyProduct]
    rfl

/-- Settles O14: the laws of the field, each by its lemma. -/
theorem gfMultiplyIsFieldMultiplication : Obligations.GfMultiplyIsFieldMultiplication := by
  refine ⟨gfMultiply_comm, gfMultiply_assoc, gfMultiply_xor_right, fun a => ?units, fun a b => gfMultiply_eq_zero,
    fun a ha => ?inverse, gfMultiply_of_mem_inversePairs⟩
  case units =>
    exact ⟨gfMultiply_one_left a, gfMultiply_one_right a, gfMultiply_zero_left a, gfMultiply_zero_right a⟩
  case inverse =>
    obtain ⟨b, hb⟩ := exists_gfMultiply_eq_one ha
    exact ⟨b, hb, fun c => gfMultiply_eq_one_unique hb⟩

end Sys2Proof.Machine
end

section
/-! PROOF. The substitutions: each is a lookup, nibble by nibble, and undoes the other for every S-Box (41_sbox R100, R102,
R103, 44_round_engine R151); `SBX`, `ISBX`, `SBB` and `ISBB` answer them (R105 to R108). -/

namespace Sys2Proof.Machine

/-! ## Lookups -/

@[simp] theorem substituteNibble_false (σ : SBox) (n : Nibble) : substituteNibble σ n false = σ n := rfl
@[simp] theorem substituteNibble_true (σ : SBox) (n : Nibble) : substituteNibble σ n true = σ.symm n := rfl

@[simp] theorem substituteByte_append (σ : SBox) (h l : Nibble) (f : Bool) :
    substituteByte σ (h ++ l) f = substituteNibble σ h f ++ substituteNibble σ l f := by
  simp only [substituteByte, highNibble_append, lowNibble_append]

/-- The four lanes of `substituteNibbles` (44_round_engine R151). -/
@[simp] theorem substituteNibbles_append (σ : SBox) (a b c d : Nibble) (f : Bool) :
    substituteNibbles σ (a ++ b ++ c ++ d) f =
      substituteNibble σ a f ++ substituteNibble σ b f ++ substituteNibble σ c f ++ substituteNibble σ d f := by
  simp only [substituteNibbles, toNibbles_zero, toNibbles_one, toNibbles_two, toNibbles_three, nibble0_append,
    nibble1_append, nibble2_append, nibble3_append]
  rfl

/-! ## Inverses

The nibble law is that of the permutation; the others apply it in each place. -/

@[simp] theorem substituteNibble_not (σ : SBox) (n : Nibble) (f : Bool) :
    substituteNibble σ (substituteNibble σ n f) (!f) = n := by
  cases f with
  | false => exact σ.symm_apply_apply n
  | true => exact σ.apply_symm_apply n

/-- Every byte is two joined nibbles. -/
theorem exists_twoNibbles (b : Byte) : ∃ h l : Nibble, b = h ++ l :=
  ⟨b.extractLsb' 4 4, b.extractLsb' 0 4, (BitVec.extractLsb'_append_extractLsb' (w := 4) (len := 4) (x := b)).symm⟩

theorem substituteByte_not (σ : SBox) (b : Byte) (f : Bool) : substituteByte σ (substituteByte σ b f) (!f) = b := by
  obtain ⟨h, l, rfl⟩ := exists_twoNibbles b
  simp only [substituteByte_append, substituteNibble_not]

theorem substituteNibbles_not (σ : SBox) (v : Word) (f : Bool) :
    substituteNibbles σ (substituteNibbles σ v f) (!f) = v := by
  obtain ⟨a, b, c, d, rfl⟩ := exists_nibbles v
  simp only [substituteNibbles_append, substituteNibble_not]

/-- Settles O16: each substitution is a lookup, and the flags' two substitutions undo each other. -/
theorem substitutionsAreInverse : Obligations.SubstitutionsAreInverse := by
  intro σ f
  refine ⟨fun n => ?lookup, fun h l => substituteByte_append σ h l f, fun n => substituteNibble_not σ n f,
    fun b => substituteByte_not σ b f, fun v => substituteNibbles_not σ v f⟩
  case lookup => cases f <;> rfl

/-! ## The commands -/

theorem exec_sbx (n : Nibble) (s : State) : exec (.sbx n) s = .next (s.respond (zext16 (Config.sbox n))) := rfl

theorem exec_isbx (n : Nibble) (s : State) : exec (.isbx n) s = .next (s.respond (zext16 (Config.sbox.symm n))) := rfl

/-- The answer for a byte is the two nibbles' values, each in its place, below eight zeros. -/
theorem zext16_substituteByte (σ : SBox) (h l : Nibble) (f : Bool) :
    zext16 (substituteByte σ (h ++ l) f) = (0 : Byte) ++ substituteNibble σ h f ++ substituteNibble σ l f := by
  rw [substituteByte_append, zero_append_eq_setWidth, setWidth_append_eq_setWidth]
  rfl

theorem exec_sbb (h l : Nibble) (s : State) :
    exec (.sbb (h ++ l)) s = .next (s.respond ((0 : Byte) ++ Config.sbox h ++ Config.sbox l)) :=
  congrArg (fun v : Word => Host.Outcome.next (s.respond v)) (zext16_substituteByte Config.sbox h l false)

theorem exec_isbb (h l : Nibble) (s : State) :
    exec (.isbb (h ++ l)) s = .next (s.respond ((0 : Byte) ++ Config.sbox.symm h ++ Config.sbox.symm l)) :=
  congrArg (fun v : Word => Host.Outcome.next (s.respond v)) (zext16_substituteByte Config.sbox h l true)

/-- Settles O15: each command answers its lookup; what `SBX` and `ISBX` answer to each other's answer is the operand. -/
theorem substitutionCommandsLookUp : Obligations.SubstitutionCommandsLookUp := by
  refine ⟨decodesAs_of_instrOf fun w => ?sbx, decodesAs_of_instrOf fun w => ?isbx, decodesAs_of_instrOf fun w => ?sbb,
    decodesAs_of_instrOf fun w => ?isbb, exec_sbx, exec_isbx, exec_sbb, exec_isbb,
    fun n s => ⟨_, _, exec_sbx n s, exec_isbx _ _, ?isbxUndoesSbx⟩,
    fun n s => ⟨_, _, exec_isbx n s, exec_sbx _ _, ?sbxUndoesIsbx⟩⟩
  case sbx | isbx | sbb | isbb => simp [instrOf, operand_immField]
  case isbxUndoesSbx | sbxUndoesIsbx => simp [zext16]

end Sys2Proof.Machine
end

section
/-! PROOF. The codec: the forms of a 16-bit value and their round trips (42_codec R115 to R120), and the commands that load,
store and read them (R121 to R127). -/

namespace Sys2Proof.Machine

/-! ## Round trips -/

/-- A 16-bit value is its nibbles joined (42_codec R120). -/
@[simp] theorem fromNibbles_toNibbles (v : Word) : fromNibbles (toNibbles v) = v := nibbles_join v

/-- To a matrix and back the nibbles keep their order: both ways are column-major (42_codec R120). -/
@[simp] theorem fromMatrix_toMatrix (v : Word) : fromMatrix (toMatrix v) = v := fromNibbles_toNibbles v

/-- Settles O17, a round trip each. -/
theorem codecRoundTrips : Obligations.CodecRoundTrips :=
  ⟨fun v => ⟨fromMatrix_toMatrix v, fromNibbles_toNibbles v⟩, toNibbles_fromNibbles, toMatrix_fromMatrix⟩

/-! ## A nibble as an integer -/

/-- Nibble `k` is the slice of four bits above bit `12 - 4k` (42_codec R115). -/
theorem toNibbles_getElem (v : Word) {k : Nat} (hk : k < 4) : (toNibbles v)[k] = v.extractLsb' (12 - 4 * k) 4 := by
  interval_cases k <;> rfl

/-- A slice of four bits, zero-extended, is a shift and a mask, whatever the width. -/
theorem setWidth_extractLsb'_eq_and (m lo : Nat) (v : BitVec (m + 4)) :
    (v.extractLsb' lo 4).setWidth (m + 4) = (v >>> lo) &&& (BitVec.allOnes 4).setWidth (m + 4) := by
  rw [BitVec.and_setWidth_allOnes, BitVec.setWidth_ushiftRight_eq_extractLsb, ← zero_append_eq_setWidth]
  rfl

/-- Nibble `k`, zero-extended, is a shift and a mask (42_codec R115). -/
theorem zext16_toNibbles_getElem (v : Word) {k : Nat} (hk : k < 4) :
    zext16 (toNibbles v)[k] = (v >>> (12 - 4 * k)) &&& 0xF := by
  rw [toNibbles_getElem v hk]
  exact setWidth_extractLsb'_eq_and 12 (12 - 4 * k) v

/-! ## The nibble space -/

theorem zext16_nsRead (i : BitVec 2) (s : State) : zext16 (nsRead i s) = (s.S >>> (12 - 4 * i.toNat)) &&& 0xF :=
  zext16_toNibbles_getElem s.S i.isLt

@[simp] theorem toNibbles_nsWrite (i : BitVec 2) (v : Nibble) (s : State) :
    toNibbles (nsWrite i v s) = (toNibbles s.S).set i.toNat v :=
  toNibbles_fromNibbles _

/-- What a write of a nibble leaves in that nibble (42_codec R124). -/
theorem nibble_nsWrite_same (i : BitVec 2) (v : Nibble) (s : State) :
    (nsWrite i v s >>> (12 - 4 * i.toNat)) &&& 0xF = v.setWidth 16 := by
  rw [← zext16_toNibbles_getElem _ i.isLt]
  simp [zext16]

/-- What a write of a nibble leaves in each other nibble (42_codec R124). -/
theorem nibble_nsWrite_of_ne {i j : BitVec 2} (h : j ≠ i) (v : Nibble) (s : State) :
    (nsWrite i v s >>> (12 - 4 * j.toNat)) &&& 0xF = (s.S >>> (12 - 4 * j.toNat)) &&& 0xF := by
  have hindex : i.toNat ≠ j.toNat := fun heq => h (BitVec.eq_of_toNat_eq heq.symm)
  rw [← zext16_toNibbles_getElem _ j.isLt, ← zext16_toNibbles_getElem _ j.isLt]
  simp [hindex]

/-! ## The matrix space

Cell `(r, c)` is nibble `r + 2c` (42_codec R117), for a read and for a write. -/

/-- The nibble index of a cell fits the two bits of an index into the nibble space (20_memory R52). -/
theorem toNat_cellIndex (r c : BitVec 1) : (BitVec.ofNat 2 (r.toNat + 2 * c.toNat)).toNat = r.toNat + 2 * c.toNat := by
  have hr := r.isLt
  have hc := c.isLt
  exact (BitVec.toNat_ofNat _ _).trans (Nat.mod_eq_of_lt (by omega))

theorem toMatrix_getElem (v : Word) {r c : Nat} (hr : r < 2) (hc : c < 2) :
    (toMatrix v)[r][c] = (toNibbles v)[r + 2 * c] := by
  interval_cases r <;> interval_cases c <;> rfl

theorem fromMatrix_set_toMatrix (v : Word) (n : Nibble) {r c : Nat} (hr : r < 2) (hc : c < 2) :
    fromMatrix ((toMatrix v).set r ((toMatrix v)[r].set c n)) = fromNibbles ((toNibbles v).set (r + 2 * c) n) := by
  interval_cases r <;> interval_cases c <;> rfl

theorem zext16_msRead (r c : BitVec 1) (s : State) :
    zext16 (msRead r c s) = (s.S >>> (12 - 4 * (r.toNat + 2 * c.toNat))) &&& 0xF := by
  rw [msRead, toMatrix_getElem s.S r.isLt c.isLt, zext16_toNibbles_getElem]

theorem msWrite_eq_nsWrite (r c : BitVec 1) (v : Nibble) (s : State) :
    msWrite r c v s = nsWrite (BitVec.ofNat 2 (r.toNat + 2 * c.toNat)) v s := by
  rw [msWrite, fromMatrix_set_toMatrix s.S v r.isLt c.isLt]
  simp only [nsWrite, toNat_cellIndex]

/-! ## The loads and stores -/

theorem exec_rds (s : State) : exec .rds s = .next (s.respond s.S) := rfl

theorem exec_lds (v : Word) (s : State) : exec (.lds v) s = .next (s.replaceS v) := rfl

theorem exec_rdn (i : BitVec 2) (s : State) : exec (.rdn i) s = .next (s.respond (zext16 (nsRead i s))) := rfl

theorem exec_wrn (i : BitVec 2) (v : Nibble) (s : State) : exec (.wrn i v) s = .next (s.replaceS (nsWrite i v s)) := rfl

theorem exec_rdm (r c : BitVec 1) (s : State) : exec (.rdm r c) s = .next (s.respond (zext16 (msRead r c s))) := rfl

theorem exec_wrm (r c : BitVec 1) (v : Nibble) (s : State) :
    exec (.wrm r c v) s = .next (s.replaceS (msWrite r c v s)) := rfl

/-- Settles O18: `LDS` is a write of `S` and `RDS` a response, as each is executed. -/
theorem stateIsLoadedAndRead : Obligations.StateIsLoadedAndRead := by
  refine ⟨decodesAs_of_instrOf fun w => ?lds, decodesAs_of_instrOf fun w => ?rds, exec_lds, exec_rds,
    exec_rds State.reset⟩
  case lds | rds => simp [instrOf, operand_immField]

/-- Where each nibble of a sequence is replaced, nothing of the sequence stays. -/
theorem fromNibbles_set_all (q : Nibbles) (a b c d : Nibble) :
    fromNibbles ((((q.set 0 a).set 1 b).set 2 c).set 3 d) = a ++ b ++ c ++ d := by
  simp [fromNibbles]

/-- Four writes of the nibble space, one for each nibble, build any state (42_codec R124). -/
theorem execList_fourWrites (a b c d : Nibble) (s : State) :
    ∃ t, execList [.wrn 0 a, .wrn 1 b, .wrn 2 c, .wrn 3 d] s = .next t ∧ t.S = a ++ b ++ c ++ d := by
  refine ⟨_, (execList_cons (exec_wrn 0 a _)).trans <| (execList_cons (exec_wrn 1 b _)).trans <|
    (execList_cons (exec_wrn 2 c _)).trans (execList_cons (exec_wrn 3 d _)), ?_⟩
  rw [State.replaceS_S, nsWrite]
  simp only [State.replaceS_S, toNibbles_nsWrite]
  exact fromNibbles_set_all (toNibbles s.S) a b c d

/-- Settles O19: the value `WRN` leaves in `S` is that of the write of the nibble space. -/
theorem nibbleIsReadAndWritten : Obligations.NibbleIsReadAndWritten := by
  refine ⟨decodesAs_of_instrOf fun w => ?rdn, decodesAs_of_instrOf fun w => ?wrn, fun i s => ?read,
    fun i v s => ⟨nsWrite i v s, exec_wrn i v s, nibble_nsWrite_same i v s, fun j hj => nibble_nsWrite_of_ne hj v s⟩,
    execList_fourWrites⟩
  case rdn | wrn => simp [instrOf, operand_immField]
  case read =>
    rw [exec_rdn, zext16_nsRead]
    rfl

/-- Settles O20: a cell of the matrix space is a cell of the nibble space. -/
theorem matrixCellIsReadAndWritten : Obligations.MatrixCellIsReadAndWritten := by
  refine ⟨decodesAs_of_instrOf fun w => ?rdm, decodesAs_of_instrOf fun w => ?wrm, fun r c s => ?read,
    fun r c v s => ⟨msWrite r c v s, exec_wrm r c v s, ?sameAsWrn⟩⟩
  case rdm | wrm => simp [instrOf, operand_immField]
  case read =>
    rw [exec_rdm, zext16_msRead]
    rfl
  case sameAsWrn => rw [exec_wrm, exec_wrn, msWrite_eq_nsWrite]

/-! ## The swap of a byte's nibbles -/

@[simp] theorem rotateNibblesInByte_append (h l : Nibble) : rotateNibblesInByte (h ++ l) = l ++ h := by
  simp only [rotateNibblesInByte, highNibble_append, lowNibble_append]

/-- The swap as shifts and a mask (42_codec R119). -/
theorem rotateNibblesInByte_eq_shifts (b : Byte) : rotateNibblesInByte b = ((b &&& 0xF) <<< 4) ||| (b >>> 4) := by
  have hlow : b &&& 0xF = (b.extractLsb' 0 4).setWidth 8 := (setWidth_extractLsb'_eq_and 4 0 b).symm
  have hhigh : b >>> 4 = (b.extractLsb' 4 4).setWidth 8 := by
    rw [← zero_append_eq_setWidth (m := 4)]
    exact BitVec.ushiftRight_eq_extractLsb'_of_lt (n := 4) (by omega)
  rw [hlow, hhigh, ← BitVec.setWidth_append_eq_shiftLeft_setWidth_or]
  rfl

theorem rotateNibblesInByte_rotateNibblesInByte (b : Byte) : rotateNibblesInByte (rotateNibblesInByte b) = b := by
  obtain ⟨h, l, rfl⟩ := exists_twoNibbles b
  simp only [rotateNibblesInByte_append]

/-- The swap fixes the bytes whose nibbles are equal, and no other (42_codec R119). -/
theorem rotateNibblesInByte_eq_self_iff (b : Byte) :
    rotateNibblesInByte b = b ↔ b.extractLsb' 4 4 = b.extractLsb' 0 4 := by
  obtain ⟨h, l, rfl⟩ := exists_twoNibbles b
  rw [rotateNibblesInByte_append, highNibble_append, lowNibble_append]
  refine ⟨fun heq => ?_, fun heq => by rw [heq]⟩
  simpa using congrArg (fun b : Byte => b.extractLsb' 0 4) heq

/-- `RTN` answers the byte's two nibbles in the other order, below eight zeros (42_codec R127). -/
theorem exec_rtn (h l : Nibble) (s : State) : exec (.rtn (h ++ l)) s = .next (s.respond ((0 : Byte) ++ l ++ h)) := by
  have hanswer : zext16 (rotateNibblesInByte (h ++ l)) = (0 : Byte) ++ l ++ h := by
    rw [rotateNibblesInByte_append, zero_append_eq_setWidth, setWidth_append_eq_setWidth]
    rfl
  exact congrArg (fun v : Word => Host.Outcome.next (s.respond v)) hanswer

/-- Settles O21: the swap of two joined nibbles joins them in the other order. -/
theorem rtnSwapsNibbles : Obligations.RtnSwapsNibbles := by
  refine ⟨decodesAs_of_instrOf fun w => ?rtn, exec_rtn, rotateNibblesInByte_eq_shifts,
    rotateNibblesInByte_rotateNibblesInByte, rotateNibblesInByte_eq_self_iff⟩
  case rtn => simp [instrOf, operand_immField]

end Sys2Proof.Machine
end

section
/-! PROOF. The key schedule: the words of `expandKey` are those of the algorithm (43_key_schedule R135 to R137), and the
commands that load the key, expand it and read its schedule (R140 to R144). -/

namespace Sys2Proof.Machine

/-! ## The algorithm -/

/-- The inner step swaps the nibbles and substitutes each, in one (43_key_schedule R136). -/
theorem scheduleCore_eq_innerStep (σ : SBox) (w rcon : Byte) : scheduleCore σ w rcon = innerStep σ w rcon := by
  obtain ⟨h, l, rfl⟩ := exists_twoNibbles w
  simp [scheduleCore, innerStep]

/-- `expandKey` is the algorithm, with the inner step in nibbles (43_key_schedule R135). -/
theorem expandKey_isScheduleOf (σ : SBox) (key : Word) : IsScheduleOf σ key (expandKey σ key).words := by
  refine ⟨rfl, rfl, ?word2, rfl, ?word4, rfl⟩
  case word2 => exact congrArg ((expandKey σ key).words[0] ^^^ ·) (scheduleCore_eq_innerStep σ _ rcon1)
  case word4 => exact congrArg ((expandKey σ key).words[2] ^^^ ·) (scheduleCore_eq_innerStep σ _ rcon2)

/-- The round keys are the words, joined in pairs (10_state R23). -/
theorem expandKey_roundKeys (σ : SBox) (key : Word) : (expandKey σ key).roundKeys = roundKeysOf (expandKey σ key).words :=
  rfl

namespace IsScheduleOf
variable {σ : SBox} {key : Word} {w : Vector Byte 6} (h : IsScheduleOf σ key w)
include h

/-- The first round key is the key (43_key_schedule R137 a). -/
theorem join_key : w[0] ++ w[1] = key := by
  obtain ⟨h0, h1, -⟩ := h
  rw [h0, h1]
  exact highByte_append_lowByte key

/-- Word 3 from the key's halves (43_key_schedule R137 b). -/
theorem word3 : w[3] = w[0] ^^^ w[1] ^^^ innerStep σ w[1] 0x80 := by
  obtain ⟨-, -, h2, h3, -, -⟩ := h
  rw [h3, h2]
  ac_rfl

/-- Word 5: word 2, which is in words 3 and 4, cancels (43_key_schedule R137 c). -/
theorem word5 : w[5] = w[1] ^^^ innerStep σ w[3] 0x30 := by
  obtain ⟨-, -, -, h3, h4, h5⟩ := h
  calc w[5] = (w[2] ^^^ innerStep σ w[3] 0x30) ^^^ (w[2] ^^^ w[1]) := by rw [h5, h4, ← h3]
    _ = (w[2] ^^^ w[2]) ^^^ (w[1] ^^^ innerStep σ w[3] 0x30) := by ac_rfl
    _ = w[1] ^^^ innerStep σ w[3] 0x30 := by rw [BitVec.xor_self, BitVec.zero_xor]

end IsScheduleOf

/-- Settles O24: each consequence holds of any schedule of the key. -/
theorem keyScheduleConsequences : Obligations.KeyScheduleConsequences := by
  intro σ key
  have h := expandKey_isScheduleOf σ key
  exact ⟨h.join_key, h.join_key, h.word3, h.word5⟩

/-! ## The key -/

theorem exec_ldk (v : Word) (s : State) : exec (.ldk v) s = .next ((s.loadKey v).respond 0) := rfl

theorem exec_rdk (s : State) : exec .rdk s = .next (s.respond s.K) := rfl

/-- Only `LDK` and `RST` have `K` in their row of the write matrix (10_state R36). -/
theorem keyColumn_not_mem_writes {i : Instr} (hldk : ∀ v, i ≠ .ldk v) (hrst : i ≠ .rst) : Column.K ∉ i.writes := by
  cases i with
  | ldk v => exact absurd rfl (hldk v)
  | rst => exact absurd rfl hrst
  | _ => simp [Instr.writes]

/-- Settles O22: the last clause is the column of `K` in the write matrix. -/
theorem keyIsLoadedAndRead : Obligations.KeyIsLoadedAndRead := by
  refine ⟨decodesAs_of_instrOf fun w => ?ldk, decodesAs_of_instrOf fun w => ?rdk, exec_ldk, exec_rdk,
    exec_rdk State.reset, fun i s t hldk hrst h => ?kept⟩
  case ldk | rdk => simp [instrOf, operand_immField]
  case kept =>
    obtain ⟨hblank, -⟩ := writeMatrix i s t h
    exact hblank .K (keyColumn_not_mem_writes hldk hrst)

/-! ## Its schedule -/

theorem exec_kexp (s : State) :
    exec .kexp s = .next ((s.loadWords (expandKey Config.sbox s.K).words).respond 0) := rfl

/-- `KEXP` does not write `K`, so that a second run writes the words of the first (43_key_schedule R142). -/
theorem exec_kexp_again {s t : State} (h : exec .kexp s = .next t) : exec .kexp t = .next (t.respond 0) := by
  rw [exec_kexp] at h
  cases h
  exact exec_kexp _

/-- Settles O23: the words that `KEXP` loads are those of `expandKey`, which are the algorithm's. -/
theorem kexpRunsKeySchedule : Obligations.KexpRunsKeySchedule := by
  refine ⟨decodesAs_of_instrOf fun w => ?kexp, fun σ key => ⟨expandKey_isScheduleOf σ key, expandKey_roundKeys σ key⟩,
    fun s => ⟨_, expandKey_isScheduleOf _ _, exec_kexp s, (expandKey_roundKeys _ _).symm⟩, fun s t u ht hu => ?again⟩
  case kexp => simp [instrOf]
  case again => exact (Host.Outcome.next.inj ((exec_kexp_again ht).symm.trans hu)).symm

/-! ## The reads of the schedule -/

/-- An index operand past the end of its space raises `E_INDEX`, code 2, whatever the flags (60_exceptions R214, R217). -/
theorem exec_badIndex {i : Instr} {s : State} (hindex : i.indexLegal = false) : exec i s = .next (afterError 2 s) :=
  exec_of_failedCheck (e := .index) (by simp [failedCheck, hindex])

/-- `RDW` answers word `i` of a valid word file, zero-extended (43_key_schedule R143). -/
theorem exec_rdw_of_valid {i : BitVec 3} {s : State} (h : i.toNat < 6) (hvalid : s.KSV = true) :
    exec (.rdw i) s = .next (s.respond ((0 : Byte) ++ s.W[i.toNat])) := by
  have hcell : wsCell i s = some s.W[i.toNat] := Vector.getElem?_eq_getElem h
  have hexec : exec (.rdw i) s = .next (s.guarded (wsCell i s) s.KSV .noKey fun w => s.respond (zext16 w)) := rfl
  rw [hexec, hcell, hvalid, State.guarded_valid, zero_append_eq_setWidth]
  rfl

/-- A guarded command goes on with round key `i` of a valid word file (20_memory R54). -/
theorem guarded_rksCell {i : BitVec 2} {s : State} (h : i.toNat < 3) (hvalid : s.KSV = true) (use : Word → State) :
    s.guarded (rksCell i s) s.KSV .noKey use = use s.RK[i.toNat] := by
  rw [rksCell, Vector.getElem?_eq_getElem h, hvalid, State.guarded_valid]

/-- `RDRK` answers round key `i` of a valid word file (43_key_schedule R144). -/
theorem exec_rdrk_of_valid {i : BitVec 2} {s : State} (h : i.toNat < 3) (hvalid : s.KSV = true) :
    exec (.rdrk i) s = .next (s.respond s.RK[i.toNat]) :=
  congrArg _ (guarded_rksCell h hvalid _)

/-- Settles O25: the word, or the error of the check that fails. -/
theorem rdwReadsWord : Obligations.RdwReadsWord := by
  refine ⟨decodesAs_of_instrOf fun w => ?rdw, fun i s => ⟨fun h hvalid => exec_rdw_of_valid h hvalid,
    fun h => exec_badIndex (decide_eq_false (by omega)), fun h hvalid => exec_noKey rfl (decide_eq_true h) hvalid⟩⟩
  case rdw => simp [instrOf, operand_immField]

/-- Settles O26: the round key, or the error of the check that fails; the word file of a coherent state begins with `K`. -/
theorem rdrkReadsRoundKey : Obligations.RdrkReadsRoundKey := by
  refine ⟨decodesAs_of_instrOf fun w => ?rdrk, fun s => rfl, fun i s => ⟨fun h hvalid => exec_rdrk_of_valid h hvalid,
    fun h => exec_badIndex (decide_eq_false (by omega)), fun h hvalid => exec_noKey rfl (decide_eq_true h) hvalid⟩,
    fun s hcoherent hvalid => ?key⟩
  case rdrk => simp [instrOf, operand_immField]
  case key =>
    have hread : exec (.rdrk 0) s = .next (s.respond s.RK[0]) := exec_rdrk_of_valid (i := 0) (by decide) hvalid
    rw [hread, hcoherent.RK_zero hvalid]
    rfl

/-! ## The vector of the default table

A trace and a decryption answer what the pipelines give for any S-Box; the default table only supplies the values. -/

/-- The responses to an input, a key, their encryption trace, and the decryption of its result (46_trace R190,
45_pipeline R181). -/
theorem execListAt_traceThenDecrypt (σ : SBox) (x k : Word) (s : State) :
    ∃ t, execListAt σ [.lds x, .ldk k, .trc .encryption, .dec] s = .next t ∧
      t.replies = s.replies ++
        [⟨false, x⟩, ⟨false, 0⟩, ⟨false, encrypt σ x k⟩, ⟨false, decrypt σ (encrypt σ x k) k⟩] := by
  refine ⟨decAt σ (trcAt σ .encryption (s.loaded x k)), rfl, ?replies⟩
  case replies => simp [decAt, runKeySchedule_eq, trcAt_eq, pipelineOf]

/-- Settles O57: the schedule and the states are evaluated at the default table, and so are the results of the two pipelines,
which the run's responses are. -/
theorem defaultTableVector : Obligations.DefaultTableVector := by
  have hencrypt : encrypt publishedSbox 0xD728 0x4AF5 = 0x24EC := by decide
  have hdecrypt : decrypt publishedSbox 0x24EC 0x4AF5 = 0xD728 := by decide
  obtain ⟨t, hrun, hreplies⟩ := execListAt_traceThenDecrypt publishedSbox 0xD728 0x4AF5 State.reset
  refine ⟨by decide, by decide, by decide, by decide, t, hrun, ?responses⟩
  case responses => rw [hreplies, hencrypt, hdecrypt, State.reset_replies, List.nil_append]

end Sys2Proof.Machine
end

section
/-! PROOF. The round engine: each transform as a map of the nibbles or the bytes of a state, its inverse and its laws
(44_round_engine R150 to R158), and the commands that apply one to `S` (R160 to R166). -/

namespace Sys2Proof.Machine

/-! ## Sums of joined values

`BitVec.xor_append` at the widths of the core, whose sums the rewriting tactics do not compute. -/

/-- Two bytes of two nibbles are four nibbles. -/
theorem append_append_nibbles (a b c d : Nibble) : ((a ++ b : Byte) ++ (c ++ d : Byte) : Word) = a ++ b ++ c ++ d :=
  (BitVec.append_assoc (x₁ := a ++ b) (x₂ := c) (x₃ := d)).symm

/-- Every state is two joined bytes. -/
theorem exists_twoBytes (v : Word) : ∃ h l : Byte, v = h ++ l := ⟨_, _, (highByte_append_lowByte v).symm⟩

theorem twoNibbles_xor (a b c d : Nibble) : (a ++ b : Byte) ^^^ (c ++ d : Byte) = (a ^^^ c) ++ (b ^^^ d) :=
  BitVec.xor_append

theorem twoBytes_xor (a b c d : Byte) : (a ++ b : Word) ^^^ (c ++ d : Word) = (a ^^^ c) ++ (b ^^^ d) :=
  BitVec.xor_append

theorem fourNibbles_xor (a b c d a' b' c' d' : Nibble) : (a ++ b ++ c ++ d : Word) ^^^ (a' ++ b' ++ c' ++ d' : Word) =
    (a ^^^ a') ++ (b ^^^ b') ++ (c ^^^ c') ++ (d ^^^ d') := by
  refine (BitVec.xor_append (x₁ := a ++ b ++ c) (y₁ := d)).trans ?_
  rw [BitVec.xor_append (x₁ := a ++ b) (y₁ := c), BitVec.xor_append]

/-! ## The key addition -/

theorem addRoundKey_addRoundKey (s k : Word) : addRoundKey (addRoundKey s k) k = s := by
  simp only [addRoundKey, BitVec.xor_assoc, BitVec.xor_self, BitVec.xor_zero]

theorem addRoundKey_zero (s : Word) : addRoundKey s 0 = s := BitVec.xor_zero

theorem addRoundKey_allOnes (s : Word) : addRoundKey s 0xFFFF = ~~~s := BitVec.xor_allOnes

/-! ## Rearrangements of the nibbles -/

/-- The state with nibble `p k` of `v` in place `k` (44_round_engine R152). -/
def rearrangeNibbles (p : Fin 4 → Fin 4) (v : Word) : Word :=
  fromNibbles #v[(toNibbles v)[p 0], (toNibbles v)[p 1], (toNibbles v)[p 2], (toNibbles v)[p 3]]

/-- The row shift is the rearrangement that exchanges nibbles 1 and 3 (44_round_engine R153). -/
theorem shiftRow_eq_rearrangeNibbles : shiftRow = rearrangeNibbles ![0, 3, 2, 1] := rfl

/-- The substitution of a state is that of each of its nibbles (44_round_engine R151). -/
theorem toNibbles_substituteNibbles (σ : SBox) (v : Word) (f : Bool) (k : Fin 4) :
    (toNibbles (substituteNibbles σ v f))[k] = substituteNibble σ (toNibbles v)[k] f := by
  rw [substituteNibbles, toNibbles_fromNibbles]
  fin_cases k <;> rfl

theorem substituteNibbles_fromNibbles (σ : SBox) (a b c d : Nibble) (f : Bool) :
    substituteNibbles σ (fromNibbles #v[a, b, c, d]) f = fromNibbles #v[substituteNibble σ a f, substituteNibble σ b f,
      substituteNibble σ c f, substituteNibble σ d f] :=
  substituteNibbles_append σ a b c d f

/-- A substitution treats every place alike, so it does not matter where a nibble stands (44_round_engine R152). -/
theorem rearrangeNibbles_substituteNibbles (p : Fin 4 → Fin 4) (σ : SBox) (v : Word) (f : Bool) :
    rearrangeNibbles p (substituteNibbles σ v f) = substituteNibbles σ (rearrangeNibbles p v) f := by
  simp only [rearrangeNibbles, toNibbles_substituteNibbles, substituteNibbles_fromNibbles]

/-- Settles O34: `shiftRow` is one of the rearrangements. -/
theorem substitutionCommutesWithShiftRow : Obligations.SubstitutionCommutesWithShiftRow := by
  intro σ s f
  refine ⟨?shiftRow, fun p => rearrangeNibbles_substituteNibbles p σ s f⟩
  case shiftRow =>
    rw [shiftRow_eq_rearrangeNibbles]
    exact rearrangeNibbles_substituteNibbles _ σ s f

/-! ## The row shift -/

/-- The row shift in bits (44_round_engine R153). -/
theorem shiftRow_eq_extractLsb' (v : Word) :
    shiftRow v = v.extractLsb' 12 4 ++ v.extractLsb' 0 4 ++ v.extractLsb' 4 4 ++ v.extractLsb' 8 4 := rfl

theorem shiftRow_append (a b c d : Nibble) : shiftRow (a ++ b ++ c ++ d) = a ++ d ++ c ++ b := by
  rw [shiftRow_eq_extractLsb', nibble0_append, nibble1_append, nibble2_append, nibble3_append]

theorem shiftRow_shiftRow (v : Word) : shiftRow (shiftRow v) = v := by
  obtain ⟨a, b, c, d, rfl⟩ := exists_nibbles v
  rw [shiftRow_append, shiftRow_append]

/-- The row shift fixes the states whose nibbles 1 and 3 are equal, and no other. -/
theorem shiftRow_eq_self_iff (v : Word) : shiftRow v = v ↔ v.extractLsb' 8 4 = v.extractLsb' 0 4 := by
  obtain ⟨a, b, c, d, rfl⟩ := exists_nibbles v
  rw [shiftRow_append, nibble1_append, nibble3_append]
  refine ⟨fun heq => ?_, fun heq => by rw [heq]⟩
  simpa using congrArg (fun v : Word => v.extractLsb' 0 4) heq

theorem shiftRow_xor (v w : Word) : shiftRow (v ^^^ w) = shiftRow v ^^^ shiftRow w := by
  obtain ⟨a, b, c, d, rfl⟩ := exists_nibbles v
  obtain ⟨a', b', c', d', rfl⟩ := exists_nibbles w
  simp only [fourNibbles_xor, shiftRow_append]

/-! ## The column mixing

The two constant matrices are circulant, so that one function of two coefficients is the action of each on one column, and
the composition of two such functions is another. -/

/-- The matrix with rows `[p, q]` and `[q, p]`. -/
def circulant (p q : Nibble) : NibbleMatrix := #v[#v[p, q], #v[q, p]]

theorem mixColumns_eq : mixColumns = mixWith (circulant 1 4) := rfl

theorem invMixColumns_eq : invMixColumns = mixWith (circulant 9 2) := rfl

/-- A circulant matrix on one column (44_round_engine R156). -/
def mixByte (p q : Nibble) (col : Byte) : Byte :=
  (gfMultiply p (col.extractLsb' 4 4) ^^^ gfMultiply q (col.extractLsb' 0 4)) ++
    (gfMultiply q (col.extractLsb' 4 4) ^^^ gfMultiply p (col.extractLsb' 0 4))

@[simp] theorem mixByte_append (p q a b : Nibble) :
    mixByte p q (a ++ b) = (gfMultiply p a ^^^ gfMultiply q b) ++ (gfMultiply q a ^^^ gfMultiply p b) := by
  simp only [mixByte, highNibble_append, lowNibble_append]

/-- A mixing joins the images of the two columns (44_round_engine R156). -/
theorem mixWith_circulant_append (p q : Nibble) (h l : Byte) :
    mixWith (circulant p q) (h ++ l) = mixByte p q h ++ mixByte p q l := by
  obtain ⟨a, b, rfl⟩ := exists_twoNibbles h
  obtain ⟨c, d, rfl⟩ := exists_twoNibbles l
  rw [mixByte_append, mixByte_append, append_append_nibbles, append_append_nibbles]
  simp [mixWith, circulant, toMatrix, fromMatrix, fromNibbles]

theorem mixByte_xor (p q : Nibble) (x y : Byte) : mixByte p q (x ^^^ y) = mixByte p q x ^^^ mixByte p q y := by
  simp only [mixByte, BitVec.extractLsb'_xor, gfMultiply_xor_right, twoNibbles_xor]
  congr 1 <;> ac_rfl

theorem mixWith_circulant_xor (p q : Nibble) (v w : Word) :
    mixWith (circulant p q) (v ^^^ w) = mixWith (circulant p q) v ^^^ mixWith (circulant p q) w := by
  obtain ⟨h, l, rfl⟩ := exists_twoBytes v
  obtain ⟨h', l', rfl⟩ := exists_twoBytes w
  simp only [twoBytes_xor, mixWith_circulant_append, mixByte_xor]

/-- The product of two circulant matrices is circulant (40_gf_arith R98). -/
theorem mixByte_mixByte (p q p' q' : Nibble) (col : Byte) : mixByte p' q' (mixByte p q col) =
    mixByte (gfMultiply p' p ^^^ gfMultiply q' q) (gfMultiply p' q ^^^ gfMultiply q' p) col := by
  obtain ⟨a, b, rfl⟩ := exists_twoNibbles col
  simp only [mixByte_append, gfMultiply_xor_right, gfMultiply_xor_left, gfMultiply_assoc]
  congr 1 <;> ac_rfl

@[simp] theorem mixByte_one_zero (col : Byte) : mixByte 1 0 col = col := by
  obtain ⟨a, b, rfl⟩ := exists_twoNibbles col
  simp

/-- A mixing whose matrix is the inverse of another's undoes it. -/
theorem mixWith_circulant_cancel {p q p' q' : Nibble} (hdiagonal : gfMultiply p' p ^^^ gfMultiply q' q = 1)
    (hother : gfMultiply p' q ^^^ gfMultiply q' p = 0) (v : Word) :
    mixWith (circulant p' q') (mixWith (circulant p q) v) = v := by
  obtain ⟨h, l, rfl⟩ := exists_twoBytes v
  simp only [mixWith_circulant_append, mixByte_mixByte, hdiagonal, hother, mixByte_one_zero]

theorem invMixColumns_mixColumns (v : Word) : invMixColumns (mixColumns v) = v :=
  mixWith_circulant_cancel (by decide) (by decide) v

theorem mixColumns_invMixColumns (v : Word) : mixColumns (invMixColumns v) = v :=
  mixWith_circulant_cancel (by decide) (by decide) v

theorem mixByte_one_four (a b : Nibble) :
    mixByte 1 4 (a ++ b) = (a ^^^ polyProduct 4 b) ++ (polyProduct 4 a ^^^ b) := by
  rw [mixByte_append, gfMultiply_eq_polyProduct 4, gfMultiply_eq_polyProduct 4]
  simp only [BitVec.ofNat_eq_ofNat, gfMultiply_one_left]

theorem mixByte_nine_two (a b : Nibble) : mixByte 9 2 (a ++ b) =
    (polyProduct 9 a ^^^ polyProduct 2 b) ++ (polyProduct 2 a ^^^ polyProduct 9 b) := by
  simp only [mixByte_append, gfMultiply_eq_polyProduct]

/-- `mixColumns` in nibbles (44_round_engine R154). -/
theorem mixColumns_append (a b c d : Nibble) : mixColumns (a ++ b ++ c ++ d) =
    (a ^^^ polyProduct 4 b) ++ (polyProduct 4 a ^^^ b) ++ (c ^^^ polyProduct 4 d) ++ (polyProduct 4 c ^^^ d) := by
  rw [← append_append_nibbles, mixColumns_eq, mixWith_circulant_append, mixByte_one_four, mixByte_one_four,
    append_append_nibbles]

/-- `invMixColumns` in nibbles (44_round_engine R155). -/
theorem invMixColumns_append (a b c d : Nibble) : invMixColumns (a ++ b ++ c ++ d) =
    (polyProduct 9 a ^^^ polyProduct 2 b) ++ (polyProduct 2 a ^^^ polyProduct 9 b) ++
      (polyProduct 9 c ^^^ polyProduct 2 d) ++ (polyProduct 2 c ^^^ polyProduct 9 d) := by
  rw [← append_append_nibbles, invMixColumns_eq, mixWith_circulant_append, mixByte_nine_two, mixByte_nine_two,
    append_append_nibbles]

/-- Settles O35: the byte function is the matrix on one column. -/
theorem columnsDoNotInteract : Obligations.ColumnsDoNotInteract :=
  ⟨⟨mixByte 1 4, mixByte_one_four, mixWith_circulant_append 1 4⟩,
    ⟨mixByte 9 2, mixByte_nine_two, mixWith_circulant_append 9 2⟩⟩

/-! ## The laws of the transforms -/

/-- Settles O32, each transform with its inverse. -/
theorem engineInverseLaws : Obligations.EngineInverseLaws :=
  ⟨addRoundKey_addRoundKey, fun σ s => ⟨substituteNibbles_not σ s false, substituteNibbles_not σ s true⟩,
    fun s => ⟨invMixColumns_mixColumns s, mixColumns_invMixColumns s⟩, shiftRow_shiftRow⟩

/-- An additive function fixes 0: its image of 0 is twice itself. -/
theorem map_zero_of_xor {f : Word → Word} (h : ∀ v w, f (v ^^^ w) = f v ^^^ f w) : f 0 = 0 :=
  calc f 0
    _ = f 0 ^^^ f 0 := h 0 0
    _ = 0 := BitVec.xor_self

/-- Settles O33: each of the three is additive, and so fixes 0. -/
theorem engineIsLinear : Obligations.EngineIsLinear := by
  suffices hxor : ∀ f ∈ [shiftRow, mixColumns, invMixColumns], ∀ v w, f (v ^^^ w) = f v ^^^ f w from
    fun f hf => ⟨hxor f hf, map_zero_of_xor (hxor f hf)⟩
  simp only [List.forall_mem_cons, List.not_mem_nil, false_implies, implies_true, and_true]
  exact ⟨shiftRow_xor, mixWith_circulant_xor 1 4, mixWith_circulant_xor 9 2⟩

/-! ## The commands -/

theorem exec_arki (v : Word) (s : State) : exec (.arki v) s = .next (s.replaceS (addRoundKey s.S v)) := rfl

theorem exec_subn (s : State) : exec .subn s = .next (s.replaceS (substituteNibbles Config.sbox s.S false)) := rfl

theorem exec_isubn (s : State) : exec .isubn s = .next (s.replaceS (substituteNibbles Config.sbox s.S true)) := rfl

theorem exec_mixc (s : State) : exec .mixc s = .next (s.replaceS (mixColumns s.S)) := rfl

theorem exec_imixc (s : State) : exec .imixc s = .next (s.replaceS (invMixColumns s.S)) := rfl

theorem exec_shrw (s : State) : exec .shrw s = .next (s.replaceS (shiftRow s.S)) := rfl

/-- `ARK` adds round key `i` of a valid word file (44_round_engine R160). -/
theorem exec_ark_of_valid {i : BitVec 2} {s : State} (h : i.toNat < 3) (hvalid : s.KSV = true) :
    exec (.ark i) s = .next (s.replaceS (addRoundKey s.S s.RK[i.toNat])) :=
  congrArg _ (guarded_rksCell h hvalid _)

/-- Two writes of `S`, the second of the value that `S` had, leave the data state as it was. -/
theorem sameData_replaceS_replaceS (v : Word) (s : State) : SameData s ((s.replaceS v).replaceS s.S) :=
  fun c => by cases c <;> rfl

/-- A command that writes `S` and then one that writes back what `S` was. -/
theorem execList_restores {i j : Instr} {s : State} {v w : Word} (hi : exec i s = .next (s.replaceS v))
    (hj : exec j (s.replaceS v) = .next ((s.replaceS v).replaceS w)) (hw : w = s.S) :
    ∃ t, execList [i, j] s = .next t ∧ SameData s t := by
  subst hw
  exact ⟨_, (execList_cons hi).trans (execList_cons hj), sameData_replaceS_replaceS v s⟩

/-- Settles O27: the round key added, or the error of the check that fails; the word file of a coherent state begins with
`K`. -/
theorem arkAddsRoundKey : Obligations.ArkAddsRoundKey := by
  refine ⟨decodesAs_of_instrOf fun w => ?ark, fun i s => ⟨fun h hvalid => exec_ark_of_valid h hvalid,
    fun h => exec_badIndex (decide_eq_false (by omega)), fun h hvalid => exec_noKey rfl (decide_eq_true h) hvalid⟩,
    fun i s h hvalid => ?twice, fun s hcoherent hvalid => ?key⟩
  case ark => simp [instrOf, operand_immField]
  case twice =>
    exact execList_restores (exec_ark_of_valid h hvalid) (exec_ark_of_valid h hvalid) (addRoundKey_addRoundKey ..)
  case key =>
    have hadd : exec (.ark 0) s = .next (s.replaceS (addRoundKey s.S s.RK[0])) :=
      exec_ark_of_valid (i := 0) (by decide) hvalid
    rw [hadd, hcoherent.RK_zero hvalid]
    rfl

/-- Settles O29: the substitution of four joined nibbles joins their values. -/
theorem subnSubstitutesEachNibble : Obligations.SubnSubstitutesEachNibble := by
  refine ⟨decodesAs_of_instrOf fun w => ?subn, decodesAs_of_instrOf fun w => ?isubn, fun a b c d s hS => ?forward,
    fun a b c d s hS => ?inverse, fun s =>
      ⟨execList_restores (exec_subn s) (exec_isubn _) (substituteNibbles_not ..),
        execList_restores (exec_isubn s) (exec_subn _) (substituteNibbles_not ..)⟩⟩
  case subn | isubn => simp [instrOf]
  case forward =>
    rw [exec_subn, hS, substituteNibbles_append]
    rfl
  case inverse =>
    rw [exec_isubn, hS, substituteNibbles_append]
    rfl

/-- Settles O30: each mixing is its matrix on the nibbles of each column; the worked examples are evaluated. -/
theorem mixcMultipliesColumns : Obligations.MixcMultipliesColumns := by
  refine ⟨decodesAs_of_instrOf fun w => ?mixc, decodesAs_of_instrOf fun w => ?imixc,
    fun a b c d s hS => ⟨_, rfl, ?forward⟩, fun a b c d s hS => ⟨_, rfl, ?inverse⟩,
    fun s => ⟨execList_restores (exec_mixc s) (exec_imixc _) (invMixColumns_mixColumns _),
      execList_restores (exec_imixc s) (exec_mixc _) (mixColumns_invMixColumns _)⟩, ?examples⟩
  case mixc | imixc => simp [instrOf]
  case forward =>
    rw [exec_mixc, hS, mixColumns_append]
    rfl
  case inverse =>
    rw [exec_imixc, hS, invMixColumns_append]
    rfl
  case examples => decide

/-- Settles O31: the value `SHRW` leaves in `S` is the row shift in bits. -/
theorem shrwSwapsSecondRow : Obligations.ShrwSwapsSecondRow := by
  refine ⟨decodesAs_of_instrOf fun w => ?shrw, fun s => ⟨_, (shiftRow_eq_extractLsb' s.S).symm, exec_shrw s⟩,
    fun s => execList_restores (exec_shrw s) (exec_shrw _) (shiftRow_shiftRow _), shiftRow_eq_self_iff, ?examples⟩
  case shrw => simp [instrOf]
  case examples => decide

/-- Settles O28: `ARKI` is a key addition, whose key is its operand. -/
theorem arkiAddsOperand : Obligations.ArkiAddsOperand := by
  refine ⟨decodesAs_of_instrOf fun w => ?arki, exec_arki, fun s => ?zero, fun s => ?ones, fun v s =>
    execList_restores (exec_arki v s) (exec_arki v _) (addRoundKey_addRoundKey ..)⟩
  case arki => simp [instrOf, operand_immField]
  case zero =>
    rw [exec_arki, addRoundKey_zero, State.replaceS_self]
    rfl
  case ones =>
    rw [exec_arki, addRoundKey_allOnes]
    rfl

end Sys2Proof.Machine
end

section
/-! PROOF. The pipelines: each stage of one undoes the mirrored stage of the other (45_pipeline R175 to R178), and `ENC` and
`DEC` have the effect of their nine commands (R180, R181). -/

namespace Sys2Proof.Machine

/-! ## Inverses

Stage `j` of a pipeline undoes stage `9 - j` of the other with the same round key, so from the middle outwards the pairs of
stages cancel by the inverse laws of the round engine (44_round_engine R158, 45_pipeline R178). -/

theorem substituteNibbles_true_false (σ : SBox) (v : Word) :
    substituteNibbles σ (substituteNibbles σ v false) true = v :=
  substituteNibbles_not σ v false

theorem substituteNibbles_false_true (σ : SBox) (v : Word) :
    substituteNibbles σ (substituteNibbles σ v true) false = v :=
  substituteNibbles_not σ v true

theorem decrypt_encrypt (σ : SBox) (x key : Word) : decrypt σ (encrypt σ x key) key = x := by
  simp only [encrypt, decrypt, addRoundKey_addRoundKey, shiftRow_shiftRow, substituteNibbles_true_false,
    invMixColumns_mixColumns]

theorem encrypt_decrypt (σ : SBox) (x key : Word) : encrypt σ (decrypt σ x key) key = x := by
  simp only [encrypt, decrypt, addRoundKey_addRoundKey, shiftRow_shiftRow, substituteNibbles_false_true,
    mixColumns_invMixColumns]

@[simp] theorem plainRecord_state (id : StepId) (v : Word) : (plainRecord id v).state = v := rfl
@[simp] theorem keyRecord_state (id : StepId) (v rk : Word) : (keyRecord id v rk).state = v := rfl
@[simp] theorem wordsRecord_state (id : StepId) (v : Word) (w : Vector Byte 6) : (wordsRecord id v w).state = v := rfl

/-- The states of the decryption of a ciphertext are those of its encryption in reverse order: up to each stage the
decryption has undone as many stages of the encryption (45_pipeline R178). -/
theorem generateTrace_decryption_encrypt_state (σ : SBox) (x key : Word) (i : Fin 11) :
    (generateTrace σ (encrypt σ x key) key .decryption)[i].state = (generateTrace σ x key .encryption)[i.rev].state := by
  fin_cases i <;>
    simp [generateTrace, encrypt, addRoundKey_addRoundKey, shiftRow_shiftRow, substituteNibbles_true_false,
      invMixColumns_mixColumns]

/-- Settles O38: the two pipelines cancel, as a whole and stage by stage. -/
theorem decryptInvertsEncrypt : Obligations.DecryptInvertsEncrypt := fun σ x key =>
  ⟨decrypt_encrypt σ x key, encrypt_decrypt σ x key, generateTrace_decryption_encrypt_state σ x key⟩

/-! ## The commands -/

/-- `ENC` leaves the data state of its nine commands: after `KEXP` the word file stays valid, so that each `ARK` adds its
round key of the schedule (45_pipeline R180). -/
theorem exec_enc_sameData_commands (s : State) : ∃ t u, exec .enc s = .next t ∧
    execList [.kexp, .ark 0, .subn, .shrw, .mixc, .ark 1, .subn, .shrw, .ark 2] s = .next u ∧ SameData t u := by
  refine ⟨_, _, exec_enc s,
    (execList_cons (exec_kexp s)).trans <| (execList_cons (exec_ark_of_valid (by decide) rfl)).trans <|
    (execList_cons (exec_subn _)).trans <| (execList_cons (exec_shrw _)).trans <| (execList_cons (exec_mixc _)).trans <|
    (execList_cons (exec_ark_of_valid (by decide) rfl)).trans <| (execList_cons (exec_subn _)).trans <|
    (execList_cons (exec_shrw _)).trans (execList_cons (exec_ark_of_valid (by decide) rfl)), fun c => ?_⟩
  cases c <;> rfl

/-- `DEC` leaves the data state of its nine commands, as `ENC` of its own (45_pipeline R181). -/
theorem exec_dec_sameData_commands (s : State) : ∃ t u, exec .dec s = .next t ∧
    execList [.kexp, .ark 2, .shrw, .isubn, .ark 1, .imixc, .shrw, .isubn, .ark 0] s = .next u ∧ SameData t u := by
  refine ⟨_, _, exec_dec s,
    (execList_cons (exec_kexp s)).trans <| (execList_cons (exec_ark_of_valid (by decide) rfl)).trans <|
    (execList_cons (exec_shrw _)).trans <| (execList_cons (exec_isubn _)).trans <|
    (execList_cons (exec_ark_of_valid (by decide) rfl)).trans <| (execList_cons (exec_imixc _)).trans <|
    (execList_cons (exec_shrw _)).trans <| (execList_cons (exec_isubn _)).trans
    (execList_cons (exec_ark_of_valid (by decide) rfl)), fun c => ?_⟩
  cases c <;> rfl

/-- Settles O36: the words that `ENC` loads are the algorithm's. -/
theorem encIsItsCommandSequence : Obligations.EncIsItsCommandSequence := by
  refine ⟨decodesAs_of_instrOf fun w => ?enc, fun s => ⟨_, expandKey_isScheduleOf _ _, exec_enc s⟩,
    exec_enc_sameData_commands⟩
  case enc => simp [instrOf]

/-- Settles O37: neither command writes `K`, so that the second undoes the first with the same key. -/
theorem decIsItsCommandSequence : Obligations.DecIsItsCommandSequence := by
  refine ⟨decodesAs_of_instrOf fun w => ?dec, fun s => ⟨_, expandKey_isScheduleOf _ _, exec_dec s⟩,
    exec_dec_sameData_commands, fun s =>
      ⟨⟨_, (execList_cons (exec_enc s)).trans (execList_cons (exec_dec _)), decrypt_encrypt Config.sbox s.S s.K⟩,
        _, (execList_cons (exec_dec s)).trans (execList_cons (exec_enc _)), encrypt_decrypt Config.sbox s.S s.K⟩⟩
  case dec => simp [instrOf]

end Sys2Proof.Machine
end

section
/-! PROOF. The trace: what its records are (46_trace R186, R191, R192, R194, R202), that `TRC` leaves it in the trace buffer
(R190), and the commands that read it (R196 to R199). -/

namespace Sys2Proof.Machine

/-! ## Records

Every record of a trace is the record of its row of the stage table (46_trace R189), so which fields it carries is read off
its micro-operation. -/

/-- A field that a record does not carry is 0 (46_trace R188). -/
structure TraceRecord.AbsentIsZero (r : TraceRecord) : Prop where
  rk : r.has_rk = false → r.rk = 0
  words : r.has_words = false → r.words = Vector.replicate 6 0

theorem StageEntry.record_absentIsZero (e : StageEntry) (s : State) : (e.record s).AbsentIsZero := by
  obtain ⟨id, uop⟩ := e
  cases uop with
  | uArk => exact ⟨nofun, fun _ => rfl⟩
  | uKexp => exact ⟨fun _ => rfl, nofun⟩
  | _ => exact ⟨fun _ => rfl, fun _ => rfl⟩

/-- Only the key expansion's record carries the words (46_trace R188). -/
theorem StageEntry.record_has_words (e : StageEntry) (s : State) :
    (e.record s).has_words = true ↔ e.uop = .uKexp := by
  obtain ⟨id, uop⟩ := e
  cases uop with
  | uKexp => exact iff_of_true rfl rfl
  | _ => exact iff_of_false nofun nofun

/-- The key expansion is stage 1, in either mode (46_trace R187). -/
theorem seqr_uop_eq_uKexp_iff (m : Mode) (k : Fin 11) : (seqr m)[k].uop = .uKexp ↔ k = 1 := by
  revert k
  cases m <;> decide

section GenerateTrace
variable (σ : SBox) (x key : Word) (m : Mode)

/-- Each record of a trace is that of its row of the stage table, for some state (46_trace R189). -/
theorem exists_generateTrace_eq_record {n : Nat} (hn : n < 11) :
    ∃ t : State, (generateTrace σ x key m)[n] = (seqr m)[n].record t := by
  have hstart : ({ State.reset with S := x, K := key, MODE := m } : State).STAGE = 0 := rfl
  have hrecord := seqRun_TB_getElem (σ := σ) hstart hn le_rfl
  rw [getElem_congr_coll (seqRun_TB hstart)] at hrecord
  exact ⟨_, hrecord⟩

theorem generateTrace_absentIsZero {n : Nat} (hn : n < 11) : (generateTrace σ x key m)[n].AbsentIsZero := by
  obtain ⟨t, ht⟩ := exists_generateTrace_eq_record σ x key m hn
  exact ht ▸ StageEntry.record_absentIsZero _ t

/-- Record 1 carries the words, and no other does (46_trace R192). -/
theorem generateTrace_has_words_iff (k : Fin 11) : (generateTrace σ x key m)[k].has_words = true ↔ k = 1 := by
  obtain ⟨t, ht⟩ := exists_generateTrace_eq_record σ x key m k.isLt
  calc (generateTrace σ x key m)[k].has_words = true
    _ ↔ (seqr m)[k].uop = .uKexp := by rw [Fin.getElem_fin, ht]; exact StageEntry.record_has_words _ t
    _ ↔ k = 1 := seqr_uop_eq_uKexp_iff m k

/-- The last record holds the result of the mode's pipeline (46_trace R190). -/
theorem generateTrace_output : (generateTrace σ x key m)[10].state = pipelineOf σ m x key := by
  cases m <;> rfl

end GenerateTrace

/-- Settles O40: identifiers, round keys and words are listed for each mode; absent fields are those of the stage's record. -/
theorem traceShape : Obligations.TraceShape := by
  intro σ x key m
  refine ⟨?identifiers, ?roundKeys, ?words, fun i => (generateTrace_absentIsZero σ x key m i.isLt).rk,
    fun i => (generateTrace_absentIsZero σ x key m i.isLt).words, generateTrace_input σ x key m, ?keyExpansion, ?lastStage,
    generateTrace_output σ x key m⟩
  case identifiers | roundKeys | words | keyExpansion | lastStage => cases m <;> rfl

/-- Settles O41: the decrypted value is the encryption's output, so the states are mirrored as in R178; both traces run the
schedule of one key. -/
theorem traceMirror : Obligations.TraceMirror := by
  intro σ x key e d
  have hcipher : e[10].state = encrypt σ x key := generateTrace_output σ x key .encryption
  have hstates (i : Fin 11) : d[i].state = e[i.rev].state := by
    simpa only [d, hcipher] using generateTrace_decryption_encrypt_state σ x key i
  have hwords : d[1].words = e[1].words := (generateTrace_words ..).trans (generateTrace_words ..).symm
  exact ⟨hstates, rfl, rfl, rfl, rfl, rfl, rfl, hwords, (hstates 10).trans (generateTrace_input ..)⟩

/-! ## Trace Steps -/

theorem length_traceStepsFrom (m : Mode) (prev : Option TraceRecord) (rs : List TraceRecord) :
    (traceStepsFrom m prev rs).length = rs.length := by
  induction rs generalizing prev with
  | nil => rfl
  | cons r rest ih => rw [traceStepsFrom, List.length_cons, ih, List.length_cons]

/-- Each Trace Step is its record with the texts that the record and the one before it give (46_trace R202). -/
theorem traceStepsFrom_getElem? (m : Mode) (prev : Option TraceRecord) (rs : List TraceRecord) (n : Nat) :
    (traceStepsFrom m prev rs)[n]? = rs[n]?.map (traceStepOf m (if n = 0 then prev else rs[n - 1]?)) := by
  induction rs generalizing prev n with
  | nil => rfl
  | cons r rest ih =>
    cases n with
    | zero => rfl
    | succ n =>
      rw [traceStepsFrom, List.getElem?_cons_succ, List.getElem?_cons_succ, ih]
      cases n <;> rfl

/-! ## TRC -/

/-- The mode operand is bit 0 of the command word (46_trace R190). -/
theorem modeOfBit_extractLsb' (w : Command) :
    modeOfBit (w.extractLsb' 0 1) = if w.getLsbD 0 then .decryption else .encryption := by
  have hbit : w.extractLsb' 0 1 = BitVec.ofBool (w.getLsbD 0) := by
    ext n hn
    obtain rfl : n = 0 := by omega
    simp
  rw [hbit]
  cases w.getLsbD 0 <;> rfl

/-- Settles O39: the next state is that of the sequencer's run, and the trace is the list that R191 spells out. -/
theorem trcRunsSequencer : Obligations.TrcRunsSequencer := by
  refine ⟨decodesAs_of_instrOf fun w => ?trc, fun m s => ⟨_, expandKey_isScheduleOf _ _,
    (exec_trc m s).trans (congrArg _ (trcAt_eq _ m s)), (generateTrace_output ..).symm⟩,
    fun σ x key => ⟨rfl, rfl, generateTrace_words σ x key⟩, fun σ x key m => ⟨?length, fun i => ?step⟩⟩
  case trc => simp [instrOf, operand_immField, modeOfBit_extractLsb']
  case length => exact (length_traceStepsFrom ..).trans (Vector.length_toList ..)
  case step =>
    have hrecord : (generateTrace σ x key m).toList[i.val]? = some (generateTrace σ x key m)[i] :=
      Vector.getElem?_toList.trans (Vector.getElem?_eq_getElem i.isLt)
    rw [traceSteps, traceStepsFrom_getElem?, hrecord]
    simp only [Fin.ext_iff]
    rfl

/-! ## The reads of the trace -/

/-- The data of `RDTI` by fields (46_trace R196). -/
theorem TraceRecord.idData_fields (r : TraceRecord) :
    r.idData.extractLsb' 0 5 = r.id.code ∧ r.idData.extractLsb' 5 3 = 0 ∧ r.idData.getLsbD 8 = r.has_rk ∧
      r.idData.getLsbD 9 = r.has_words ∧ r.idData.extractLsb' 10 6 = 0 := by
  refine ⟨BitVec.extractLsb'_append_eq_right, ?low, ?roundKey, ?words, ?high⟩
  case roundKey | words =>
    refine BitVec.getLsbD_append.trans ?_
    simp only [BitVec.getLsbD_append]
    simp
  case low => exact (BitVec.extractLsb'_append_eq_of_le (by decide)).trans BitVec.extractLsb'_append_eq_right
  case high =>
    refine (BitVec.extractLsb'_append_eq_of_le (by decide)).trans ?_
    simp only [BitVec.extractLsb'_append_eq_of_le, Nat.reduceLeDiff, Nat.reduceSub]
    exact BitVec.extractLsb'_eq_self

/-- Settles O42: the record's data, or the error of the check that fails. -/
theorem rdtiReadsIdentifier : Obligations.RdtiReadsIdentifier := by
  refine ⟨decodesAs_of_instrOf fun w => ?rdti, fun i s => ⟨fun h hvalid => ⟨_, exec_rdti_of_valid h hvalid,
    TraceRecord.idData_fields _⟩, fun h => exec_badIndex (decide_eq_false (by omega)),
    fun h hvalid => exec_noTrace rfl (decide_eq_true h) hvalid⟩⟩
  case rdti => simp [instrOf, operand_immField]

namespace Coherent
variable {s : State} (h : Coherent s) (hvalid : s.TRV = true)
include h hvalid

/-- A valid trace buffer has no value in a field that its record does not carry (10_state R34 I2). -/
theorem record_absentIsZero {n : Nat} (hn : n < 11) : s.TB[n].AbsentIsZero := by
  rw [getElem_congr_coll (h.traceBuffer hvalid)]
  exact generateTrace_absentIsZero _ _ _ _ hn

/-- Record 1 of a valid trace carries the words, and no other does (46_trace R199). -/
theorem record_has_words_iff (k : Fin 11) : s.TB[k].has_words = true ↔ k = 1 := by
  rw [h.traceBuffer hvalid]
  exact generateTrace_has_words_iff _ _ _ _ k

/-- The words of a valid trace are the schedule of the traced key (10_state R34 I2). -/
theorem tracedWords : s.TB[1].words = (expandKey Config.sbox s.tracedKey).words := by
  conv_lhs => rw [h.traceBuffer hvalid]
  exact generateTrace_words ..

/-- A record other than record 1 holds the word 0 in every place (46_trace R199). -/
theorem record_words_of_ne_one {n : Nat} (hn : n < 11) (hne : n ≠ 1) : s.TB[n].words = Vector.replicate 6 0 := by
  refine (h.record_absentIsZero hvalid hn).words (Bool.eq_false_iff.mpr fun hwords => hne ?_)
  exact congrArg Fin.val ((h.record_has_words_iff hvalid ⟨n, hn⟩).mp hwords)

end Coherent

/-- Settles O43: the record's field, or the error of the check that fails. -/
theorem rdtsAndRdtkReadRecord : Obligations.RdtsAndRdtkReadRecord := by
  refine ⟨decodesAs_of_instrOf fun w => ?rdts, decodesAs_of_instrOf fun w => ?rdtk, fun i s =>
    ⟨fun h hvalid => ⟨exec_rdts_of_valid h hvalid, exec_rdtk_of_valid h hvalid⟩, fun h => ?index, fun h hvalid => ?noTrace⟩,
    fun i s h => rfl, fun i s h hcoherent hvalid hkey => ?absent⟩
  case rdts | rdtk => simp [instrOf, operand_immField]
  case index => exact ⟨exec_badIndex (decide_eq_false (by omega)), exec_badIndex (decide_eq_false (by omega))⟩
  case noTrace => exact ⟨exec_noTrace rfl (decide_eq_true h) hvalid, exec_noTrace rfl (decide_eq_true h) hvalid⟩
  case absent =>
    rw [exec_rdtk_of_valid h hvalid, (hcoherent.record_absentIsZero hvalid h).rk hkey]
    rfl

/-- `RDTW` answers word `j` of record `i` of a valid trace, zero-extended (46_trace R199). -/
theorem exec_rdtw_of_valid {i : BitVec 4} {j : BitVec 3} {s : State} (h : i.toNat < 11) (h' : j.toNat < 6)
    (hvalid : s.TRV = true) :
    exec (.rdtw i j) s = .next (s.respond ((0 : Byte) ++ s.TB[i.toNat].words[j.toNat])) := by
  have hword : tbsWord i j s = some s.TB[i.toNat].words[j.toNat] := by
    rw [tbsWord, tbsCell, Vector.getElem?_eq_getElem h]
    exact Vector.getElem?_eq_getElem h'
  have hexec : exec (.rdtw i j) s = .next (s.guarded (tbsWord i j s) s.TRV .noTrace fun w => s.respond (zext16 w)) := rfl
  rw [hexec, hword, hvalid, State.guarded_valid, zero_append_eq_setWidth]
  rfl

/-- Neither `LDK` nor `KEXP` writes the trace buffer, so `RDTW` answers after them what it would have before (46_trace R199). -/
theorem execList_newKey_rdtw (v : Word) {j : BitVec 3} {s : State} (h : j.toNat < 6) (hvalid : s.TRV = true) :
    ∃ t, execList [.ldk v, .kexp, .rdtw 1 j] s = .next t ∧
      t.replies = s.replies ++ [⟨false, 0⟩, ⟨false, 0⟩, ⟨false, (0 : Byte) ++ s.TB[1].words[j.toNat]⟩] := by
  refine ⟨_, (execList_cons (exec_ldk v s)).trans <| (execList_cons (exec_kexp _)).trans <|
    execList_cons (exec_rdtw_of_valid (by decide) h hvalid), by simp⟩

/-- Settles O44: the word, or the error of the check that fails; `TRC` leaves the schedule of its key in record 1, and the
commands of the key schedule leave the trace buffer. -/
theorem rdtwReadsTracedWord : Obligations.RdtwReadsTracedWord := by
  refine ⟨decodesAs_of_instrOf fun w => ?rdtw, fun i j s => ⟨fun h h' hvalid => exec_rdtw_of_valid h h' hvalid,
    fun h => ?index, fun h h' hvalid => ?noTrace⟩, fun s k hcoherent hvalid => hcoherent.record_has_words_iff hvalid k,
    fun s hcoherent hvalid => ?schedule, fun j v s h hvalid => execList_newKey_rdtw v h hvalid,
    fun m j v s h => ?traced, fun i j s h h' hne hcoherent hvalid => ?absent⟩
  case rdtw => simp [instrOf, operand_immField]
  case index => exact exec_badIndex (by simp [Instr.indexLegal]; omega)
  case noTrace => exact exec_noTrace rfl (by simp [Instr.indexLegal, h, h']) hvalid
  case schedule =>
    rw [hcoherent.tracedWords hvalid]
    exact expandKey_isScheduleOf _ _
  case traced =>
    have hvalid : (trcAt Config.sbox m s).TRV = true := by rw [trcAt_eq]
    obtain ⟨t, hrun, hreplies⟩ := execList_newKey_rdtw v h hvalid
    refine ⟨_, t, expandKey_isScheduleOf _ _, (execList_cons (exec_trc m s)).trans hrun, ?_⟩
    simp [hreplies, trcAt_eq]
  case absent =>
    rw [exec_rdtw_of_valid (by omega) (by omega) hvalid, hcoherent.record_words_of_ne_one hvalid (by omega) hne]
    simp [State.respond]

end Sys2Proof.Machine
end

section
/-! PROOF. The errors of the command interface (60_exceptions R217, R218), the reset input and an idle host
(70_reset_and_hazards R230, R241), and the system commands `RDST` and `RST` (47_system R205, R206). -/

namespace Sys2Proof.Machine

/-! ## Errors -/

/-- Settles O46: the error entry that R218 spells is the model's. -/
theorem errorEntry : Obligations.ErrorEntry := fun _ _ _ => present_of_errorOf

/-- Settles O47: the one response of a word is an error exactly where a check fails, with the code of the first that does;
the examples fail the check of the index. -/
theorem errorPriority : Obligations.ErrorPriority := by
  refine ⟨fun cmd s => ?response, fun i hboth => ?flags, exec_badIndex rfl, exec_badIndex rfl⟩
  case response =>
    obtain ⟨t, r, ht, hreplies, herror, hsuccess⟩ := oneResponsePerCommand cmd s
    have hraises : r.err = true ↔ (errorOf cmd s).isSome = true := by
      cases hr : r.err with
      | false => simp [hsuccess hr]
      | true =>
        obtain ⟨-, e, he, -⟩ := herror hr
        simp [he]
    refine ⟨t, r, ht, hreplies, hraises, fun e he => ?_⟩
    obtain ⟨-, e', he', hdata⟩ := herror (hraises.mpr (by rw [he, Option.isSome_some]))
    obtain rfl : e = e' := Option.some.inj (he.symm.trans he')
    exact hdata
  case flags =>
    obtain ⟨hkey, htrace⟩ := hboth
    simp [needsTrace_of_needsKey hkey] at htrace

/-! ## The reset input -/

/-- A step whose next host action is the reset input clears the core (70_reset_and_hazards R230). -/
theorem step_of_pending_reset {s : State} {rest : List HostAction} (h : s.pending = .reset :: rest) :
    step s = .next (s.leave rest).clear := by
  rw [step, stepWith, h]

/-- A step with nothing presented leaves the core as it is (70_reset_and_hazards R241). -/
theorem step_of_idle {s : State} (h : s.pending = []) : step s = .next s := by
  rw [step, stepWith, h]

/-- Settles O9: the two steps without a command word. -/
theorem resetInputAndIdleHost : Obligations.ResetInputAndIdleHost :=
  ⟨fun _ _ => step_of_pending_reset, fun _ => step_of_idle⟩

/-! ## RDST -/

theorem exec_rdst (s : State) : exec .rdst s = .next (s.respond s.STATUS) := rfl

/-- The bit of a mode is set for decryption (10_state R27). -/
theorem getElem_modeBit (m : Mode) : m.bit[0] = decide (m = .decryption) := by
  cases m <;> rfl

/-- The flags in the low bits of `STATUS` (47_system R205). -/
theorem STATUS_flags (s : State) : s.STATUS.getLsbD 0 = s.KSV ∧ s.STATUS.getLsbD 1 = s.TRV ∧
    s.STATUS.getLsbD 2 = decide (s.MODE = .decryption) ∧ s.STATUS.getLsbD 3 = s.ERR := by
  refine ⟨?ksv, ?trv, ?mode, ?err⟩
  all_goals
    refine BitVec.getLsbD_append.trans ?_
    simp only [BitVec.getLsbD_append]
    simp [getElem_modeBit]

/-- `STAGE` and `ECODE` in `STATUS` (47_system R205). -/
theorem STATUS_fields (s : State) : s.STATUS.extractLsb' 4 4 = s.STAGE ∧ s.STATUS.extractLsb' 8 3 = s.ECODE := by
  constructor
  all_goals
    refine (BitVec.extractLsb'_append_eq_of_le (xlo := BitVec.ofBool s.KSV) (by decide)).trans ?_
    simp only [BitVec.extractLsb'_append_eq_of_le, Nat.reduceLeDiff, Nat.reduceSub]
    exact BitVec.extractLsb'_append_eq_right

/-- A list of commands that ends with `RDST` answers the `STATUS` that the list before it leaves. -/
theorem execList_rdst {is : List Instr} {s t : State} (h : execList is s = .next t) :
    execList (is ++ [.rdst]) s = .next (t.respond t.STATUS) := by
  induction is generalizing s with
  | nil =>
    cases h
    rfl
  | cons i is ih =>
    obtain ⟨u, hu, -⟩ := exec_executes i s
    rw [List.cons_append, execList_cons hu]
    exact ih ((execList_cons hu).symm.trans h)

/-- The last response of a list of commands that ends with `RDST`. -/
theorem execList_rdst_answers {is : List Instr} {s t : State} {v : Word} (h : execList is s = .next t)
    (hv : t.STATUS = v) : ∃ u, execList (is ++ [.rdst]) s = .next u ∧ u.replies.getLast? = some ⟨false, v⟩ :=
  ⟨_, execList_rdst h, by simp [hv]⟩

/-- Settles O10: the word is `STATUS`, read by its fields; I3, I4 and I6 bound them in a coherent state. -/
theorem rdstReportsStatus : Obligations.RdstReportsStatus := by
  refine ⟨decodesAs_of_instrOf fun w => ?rdst, fun s => ?layout, fun s t v h ht hv => ?values, ?examples⟩
  case rdst => simp [instrOf]
  case layout =>
    obtain ⟨hKSV, hTRV, hMODE, hERR⟩ := STATUS_flags s
    obtain ⟨hSTAGE, hECODE⟩ := STATUS_fields s
    exact ⟨_, exec_rdst s, hKSV, hTRV, hMODE, hERR, hSTAGE, hECODE, STATUS_reserved s⟩
  case values =>
    obtain rfl : s.STATUS = v := by
      rw [← Host.Outcome.next.inj ((exec_rdst s).symm.trans ht)] at hv
      simpa using hv
    obtain ⟨-, hTRV, hMODE, hERR⟩ := STATUS_flags s
    obtain ⟨hSTAGE, hECODE⟩ := STATUS_fields s
    rw [hSTAGE, hECODE, hTRV, hMODE, hERR]
    refine ⟨?_, ?_, fun hnone => by simp [h.mode hnone], h.errorFlags, h.errorCode⟩ <;>
      cases hvalid : s.TRV <;> simp [h.stage, hvalid]
  case examples =>
    simp only [List.forall_mem_cons]
    refine ⟨execList_rdst_answers rfl rfl, execList_rdst_answers rfl rfl,
      execList_rdst_answers (execList_cons (exec_trc ..)) ?encryption,
      execList_rdst_answers (execList_cons (exec_trc ..)) ?decryption, execList_rdst_answers rfl rfl, nofun⟩
    case encryption | decryption =>
      rw [trcAt_eq]
      rfl

/-! ## RST -/

theorem exec_rst (s : State) : exec .rst s = .next (s.clear.respond 0) := rfl

/-- `STATUS` is 0 after `RST` (47_system R206). -/
theorem STATUS_clear (s : State) (v : Word) : (s.clear.respond v).STATUS = 0 :=
  calc (s.clear.respond v).STATUS
    _ = State.reset.STATUS := rfl
    _ = 0 := rfl

/-- A trace stays valid under every command but `RST` (10_state R26). -/
theorem Performs.keeps_TRV {i : Instr} {s t : State} (h : Performs i s t) (hi : i ≠ .rst) (hvalid : s.TRV = true) :
    t.TRV = true := by
  cases h with
  | trace m => rw [trcAt_eq]
  | reset => exact absurd rfl hi
  | _ => exact hvalid

/-- Settles O11: each other command either performs its work, which keeps the flags and a valid trace, or enters an error, after
which the code of the first error stays. -/
theorem rstRestoresResetState : Obligations.RstRestoresResetState := by
  refine ⟨decodesAs_of_instrOf fun w => ?rst, exec_rst, fun s t u ht hu => ?twice, fun i s t hi h => ?keeps,
    fun s => ?restart⟩
  case rst => simp [instrOf]
  case twice =>
    cases ht
    cases hu
    exact ⟨fun c => by cases c <;> rfl, rfl, rfl⟩
  case keeps =>
    cases executes_of_exec h with
    | fails => exact ⟨fun herr => ⟨rfl, ecodeAfter_later herr⟩, id⟩
    | performs _ hperforms =>
      obtain ⟨hERR, hECODE⟩ := hperforms.errorFlags hi
      exact ⟨fun herr => ⟨hERR.trans herr, hECODE⟩, hperforms.keeps_TRV hi⟩
  case restart =>
    refine ⟨_, (execList_cons (exec_rst s)).trans <| (execList_cons (exec_rdst _)).trans <|
      (execList_cons (exec_rds _)).trans (execList_cons (exec_noKey rfl rfl rfl)), ?_⟩
    simp [afterError, STATUS_clear]

end Sys2Proof.Machine
end

section
/-! PROOF. Two runs side by side: what a command does is determined by what it can read, so states that agree there run through
the same effects. Hence the contents behind a cleared validity flag cannot be observed (70_reset_and_hazards R242), and
failing commands can be removed from a list without a change of the data state (60_exceptions R219). -/

namespace Sys2Proof.Machine

/-! ## The effect of a command -/

/-- What one command word does to the core: one operation of the state with its operands, already computed. -/
inductive Effect where
  | respond (v : Word)
  | replaceS (v : Word)
  | loadKey (v : Word)
  | expandKey
  | pipeline (v : Word)
  | trace (m : Mode)
  | reset
  | raise (e : ErrorKind)

/-- The state an effect leaves. -/
def Effect.run : Effect → State → State
  | .respond v, s => s.respond v
  | .replaceS v, s => s.replaceS v
  | .loadKey v, s => (s.loadKey v).respond 0
  | .expandKey, s => (s.runKeySchedule Config.sbox).respond 0
  | .pipeline v, s => (s.runKeySchedule Config.sbox).replaceS v
  | .trace m, s => trcAt Config.sbox m s
  | .reset, s => s.clear.respond 0
  | .raise e, s => s.raise e

/-- Every effect adds one response: its own, but for a trace, which answers the result of the pipeline on `S` and `K`. -/
theorem Effect.run_replies (a : Effect) {s t : State} (hS : s.S = t.S) (hK : s.K = t.K) :
    ∃ r, (a.run s).replies = s.replies ++ [r] ∧ (a.run t).replies = t.replies ++ [r] := by
  cases a with
  | trace m =>
    simp only [Effect.run, trcAt_eq, hS, hK]
    exact ⟨_, rfl, rfl⟩
  | _ => exact ⟨_, rfl, rfl⟩

/-! ## What commands read -/

/-- Two states agree on all that a command other than `RDST` reads: the files only where they are valid. -/
structure ReadAlike (s t : State) : Prop where
  S : s.S = t.S
  K : s.K = t.K
  KSV : s.KSV = t.KSV
  TRV : s.TRV = t.TRV
  W : s.KSV = true → s.W = t.W
  TB : s.TRV = true → s.TB = t.TB

/-- A guarded command has the same effect on two states where its index is legal or not for both, and its cell is the same
where the flag allows the read (60_exceptions R217). -/
theorem guarded_effect {α : Type} {c d : Option α} {valid legal : Bool} (hc : c.isSome = legal) (hd : d.isSome = legal)
    (hcell : valid = true → c = d) (e : ErrorKind) (f : α → Effect) (s t : State) :
    ∃ a : Effect,
      (.next (s.guarded c valid e fun x => (f x).run s) : Host.Outcome State Fault Refusal) = .next (a.run s) ∧
      (.next (t.guarded d valid e fun x => (f x).run t) : Host.Outcome State Fault Refusal) = .next (a.run t) := by
  cases c with
  | none =>
    obtain rfl : d = none := by simpa [← hc] using hd
    exact ⟨.raise .index, rfl, rfl⟩
  | some x =>
    obtain ⟨y, rfl⟩ := Option.isSome_iff_exists.mp (hd.trans hc.symm)
    cases valid with
    | false => exact ⟨.raise e, rfl, rfl⟩
    | true =>
      obtain rfl : x = y := Option.some.inj (hcell rfl)
      exact ⟨f x, rfl, rfl⟩

/-! A cell is read off its file (20_memory R53 to R55). -/

theorem wsCell_congr {s t : State} (h : s.W = t.W) (k : BitVec 3) : wsCell k s = wsCell k t := by
  rw [wsCell, h, wsCell]

theorem rksCell_congr {s t : State} (h : s.W = t.W) (k : BitVec 2) : rksCell k s = rksCell k t := by
  rw [rksCell, State.RK, h, rksCell, State.RK]

theorem tbsCell_congr {s t : State} (h : s.TB = t.TB) (k : BitVec 4) : tbsCell k s = tbsCell k t := by
  rw [tbsCell, h, tbsCell]

theorem tbsWord_congr {s t : State} (h : s.TB = t.TB) (k : BitVec 4) (j : BitVec 3) : tbsWord k j s = tbsWord k j t := by
  rw [tbsWord, tbsCell_congr h, tbsWord]

/-- States that agree on what a command reads go through the same effect. With `S`, `K` and the flags of the one in the other,
an unguarded command computes the same operands by definition; a guarded one also needs its cell to be the same. -/
theorem exec_effect {s t : State} (h : ReadAlike s t) (i : Instr) (hstatus : i = .rdst → s.STATUS = t.STATUS) :
    ∃ a : Effect, exec i s = .next (a.run s) ∧ exec i t = .next (a.run t) := by
  obtain ⟨S, K, W, KSV, TRV, MODE, ERR, ECODE, STAGE, TB, pending, replies⟩ := t
  obtain ⟨rfl, rfl, rfl, rfl, hW, hTB⟩ := h
  cases i
  case rdst => exact ⟨.respond s.STATUS, rfl, by rw [hstatus rfl]; rfl⟩
  case gfm | sbx | isbx | sbb | isbb | rds | rdn | rdm | rtn | rdk => exact ⟨.respond _, rfl, rfl⟩
  case lds | wrn | wrm | arki | subn | isubn | mixc | imixc | shrw => exact ⟨.replaceS _, rfl, rfl⟩
  case ldk v => exact ⟨.loadKey v, rfl, rfl⟩
  case kexp => exact ⟨.expandKey, rfl, rfl⟩
  case enc | dec => exact ⟨.pipeline _, rfl, rfl⟩
  case trc m => exact ⟨.trace m, rfl, rfl⟩
  case rst => exact ⟨.reset, rfl, rfl⟩
  case rdw k =>
    exact guarded_effect (wsCell_isSome k _) (wsCell_isSome k _) (fun hv => wsCell_congr (hW hv) k) _
      (fun w => .respond (zext16 w)) _ _
  case rdrk k =>
    exact guarded_effect (rksCell_isSome k _) (rksCell_isSome k _) (fun hv => rksCell_congr (hW hv) k) _ .respond _ _
  case ark k =>
    exact guarded_effect (rksCell_isSome k _) (rksCell_isSome k _) (fun hv => rksCell_congr (hW hv) k) _
      (fun rk => .replaceS (addRoundKey s.S rk)) _ _
  case rdti k | rdts k | rdtk k =>
    exact guarded_effect (tbsCell_isSome k _) (tbsCell_isSome k _) (fun hv => tbsCell_congr (hTB hv) k) _
      (fun r => .respond _) _ _
  case rdtw k j =>
    exact guarded_effect (tbsWord_isSome k j _) (tbsWord_isSome k j _) (fun hv => tbsWord_congr (hTB hv) k j) _
      (fun w => .respond (zext16 w)) _ _

/-- States that agree on what a command word's command reads go through the same effect. -/
theorem present_effect {s t : State} (h : ReadAlike s t) (cmd : Command)
    (hstatus : decode cmd = .ok .rdst → s.STATUS = t.STATUS) :
    ∃ a : Effect, present cmd s = .next (a.run s) ∧ present cmd t = .next (a.run t) := by
  cases hcmd : decode cmd with
  | ok i =>
    rw [present_of_decode_ok hcmd, present_of_decode_ok hcmd]
    exact exec_effect h i (by rintro rfl; exact hstatus hcmd)
  | error e =>
    have herror (u : State) : errorOf cmd u = some .illegal := errorOf_of_decode_error hcmd u
    exact ⟨.raise .illegal, present_of_errorOf (herror s), present_of_errorOf (herror t)⟩

/-! ## Failing commands -/

namespace SameData
variable {s t : State} (h : SameData s t)
include h

theorem symm : SameData t s := fun c => by
  have hc := h c
  cases c <;> exact hc.symm

theorem trans {u : State} (h' : SameData t u) : SameData s u := fun c => Column.same_trans (h c) (h' c)

theorem readAlike : ReadAlike s t where
  S := (h .S).symm
  K := (h .K).symm
  KSV := (h .KSV).symm
  TRV := (h .TRV).symm
  W := fun _ => (h .W).symm
  TB := fun _ => (h .TB).symm

theorem respond (v w : Word) : SameData (s.respond v) (t.respond w) :=
  (sameData_respond v s).symm.trans (h.trans (sameData_respond w t))

theorem raise (e : ErrorKind) : SameData (s.raise e) (t.raise e) :=
  (sameData_raise e s).symm.trans (h.trans (sameData_raise e t))

theorem replaceS (v : Word) : SameData (s.replaceS v) (t.replaceS v) := fun c => by
  have hc := h c
  cases c with
  | S => rfl
  | _ => exact hc

theorem loadKey (v : Word) : SameData (s.loadKey v) (t.loadKey v) := fun c => by
  have hc := h c
  cases c with
  | K | KSV => rfl
  | _ => exact hc

theorem runKeySchedule : SameData (s.runKeySchedule Config.sbox) (t.runKeySchedule Config.sbox) := fun c => by
  have hc := h c
  cases c with
  | W => exact congrArg (fun k => (expandKey Config.sbox k).words) (h .K)
  | KSV => rfl
  | _ => exact hc

/-- A trace reads `S` and `K` only, and writes every other column (46_trace R190). -/
theorem trcAt (m : Mode) : SameData (trcAt Config.sbox m s) (trcAt Config.sbox m t) := by
  have hS : t.S = s.S := h .S
  have hK : t.K = s.K := h .K
  rw [trcAt_eq, trcAt_eq, hS, hK]
  intro c
  cases c <;> rfl

/-- An effect writes the data state from the data state. -/
theorem run (a : Effect) : SameData (a.run s) (a.run t) := by
  cases a with
  | respond v => exact h.respond v v
  | replaceS v => exact h.replaceS v
  | loadKey v => exact (h.loadKey v).respond 0 0
  | expandKey => exact h.runKeySchedule.respond 0 0
  | pipeline v => exact h.runKeySchedule.replaceS v
  | trace m => exact h.trcAt m
  | reset => exact fun c => by cases c <;> rfl
  | raise e => exact h.raise e

/-- A command word takes states with the same data to states with the same data: `RDST` may answer differently, but it writes
nothing, and any other word goes through the same effect. -/
theorem present {cmd : Command} {s' t' : State} (hs : present cmd s = .next s') (ht : present cmd t = .next t') :
    SameData s' t' := by
  by_cases hrdst : decode cmd = .ok .rdst
  · rw [present_of_decode_ok hrdst] at hs ht
    cases hs
    cases ht
    exact h.respond _ _
  · obtain ⟨a, hsa, hta⟩ := present_effect h.readAlike cmd (absurd · hrdst)
    obtain rfl : a.run s = s' := Host.Outcome.next.inj (hsa.symm.trans hs)
    obtain rfl : a.run t = t' := Host.Outcome.next.inj (hta.symm.trans ht)
    exact h.run a

end SameData

/-- What survives of a list: its first command word where that raises no error, and what survives of the rest. -/
theorem surviving_cons {cmd : Command} {s t : State} (h : present cmd s = .next t) (cs : List Command) :
    surviving (cmd :: cs) s = if (errorOf cmd s).isSome then surviving cs t else cmd :: surviving cs t := by
  rw [surviving, h]

/-- The list from one state and what survives of it, presented from another with the same data, lead to the same data. -/
theorem presentAll_surviving (cs : List Command) {s t : State} (h : SameData s t) :
    SameData (presentAll cs s) (presentAll (surviving cs s) t) := by
  induction cs generalizing s t with
  | nil => exact h
  | cons cmd cs ih =>
    obtain ⟨s', hs, hrest⟩ := presentAll_cons cmd cs s
    rw [hrest, surviving_cons hs]
    cases herr : errorOf cmd s with
    | some e =>
      obtain rfl : s.raise e = s' := Host.Outcome.next.inj ((present_of_errorOf herr).symm.trans hs)
      exact ih ((sameData_raise e s).symm.trans h)
    | none =>
      obtain ⟨t', ht, hrest'⟩ := presentAll_cons cmd (surviving cs s') t
      exact hrest' ▸ ih (h.present hs ht)

/-- Settles O49, from the state itself. -/
theorem failingCommandsCanBeRemoved : Obligations.FailingCommandsCanBeRemoved := fun cs s =>
  presentAll_surviving cs fun c => c.same_refl s

/-! ## Hidden contents -/

namespace Indistinguishable
variable {s t : State} (h : Indistinguishable s t)
include h

theorem readAlike : ReadAlike s t := ⟨h.S, h.K, h.KSV, h.TRV, h.W, h.TB⟩

theorem STATUS : s.STATUS = t.STATUS := by
  simp only [State.STATUS, h.KSV, h.TRV, h.MODE, h.ERR, h.STAGE, h.ECODE]

theorem respond (v : Word) : Indistinguishable (s.respond v) (t.respond v) := { h with }

theorem replaceS (v : Word) : Indistinguishable (s.replaceS v) (t.replaceS v) := { h with S := rfl }

/-- A new key hides the word file (10_state R25). -/
theorem loadKey (v : Word) : Indistinguishable (s.loadKey v) (t.loadKey v) :=
  { h with K := rfl, KSV := rfl, W := nofun }

/-- A key-schedule run makes the word file visible and the same (10_state R22). -/
theorem runKeySchedule : Indistinguishable (s.runKeySchedule Config.sbox) (t.runKeySchedule Config.sbox) :=
  { h with KSV := rfl, W := fun _ => congrArg (fun k => (expandKey Config.sbox k).words) h.K }

/-- A trace makes both files visible and the same (46_trace R190). -/
theorem trcAt (m : Mode) : Indistinguishable (trcAt Config.sbox m s) (trcAt Config.sbox m t) := by
  rw [trcAt_eq, trcAt_eq, h.S, h.K]
  exact { h with
    S := rfl, K := rfl, KSV := rfl, TRV := rfl, MODE := rfl, STAGE := rfl, W := fun _ => rfl, TB := fun _ => rfl }

theorem raise (e : ErrorKind) : Indistinguishable (s.raise e) (t.raise e) :=
  { h with ERR := rfl, ECODE := by simp only [State.raise_ECODE, ecodeAfter, h.ERR, h.ECODE] }

/-- No effect makes hidden contents visible. -/
theorem run (a : Effect) : Indistinguishable (a.run s) (a.run t) := by
  cases a with
  | respond v => exact h.respond v
  | replaceS v => exact h.replaceS v
  | loadKey v => exact (h.loadKey v).respond 0
  | expandKey => exact h.runKeySchedule.respond 0
  | pipeline v => exact h.runKeySchedule.replaceS v
  | trace m => exact h.trcAt m
  | reset => exact ⟨rfl, rfl, rfl, rfl, rfl, rfl, rfl, rfl, fun _ => rfl, fun _ => rfl⟩
  | raise e => exact h.raise e

end Indistinguishable

/-- Settles O56, by induction on the list: each word has the same effect on both states, so it answers the same and leaves them
indistinguishable. -/
theorem hiddenContentsAreUnobservable : Obligations.HiddenContentsAreUnobservable := by
  intro s t h cs
  induction cs generalizing s t with
  | nil => exact ⟨[], (List.append_nil _).symm, (List.append_nil _).symm, rfl⟩
  | cons cmd cs ih =>
    obtain ⟨a, hs, ht⟩ := present_effect h.readAlike cmd fun _ => h.STATUS
    obtain ⟨r, hrs, hrt⟩ := a.run_replies h.S h.K
    obtain ⟨rs, hss, htt, hlength⟩ := ih _ _ (h.run a)
    refine ⟨r :: rs, ?_, ?_, by rw [List.length_cons, List.length_cons, hlength]⟩
    · rw [presentAll, hs]
      simp [hss, hrs]
    · rw [presentAll, ht]
      simp [htt, hrt]

end Sys2Proof.Machine
end
